-- ==== Sys2Proof/Word.lean ====
section
/-! DEFINITION. The widths of the machine: byte, word, register index (00_scope.md R7, R9, R10). -/

namespace Sys2Proof

/-- One byte of memory: the addressable unit (20_memory.md R50). -/
abbrev Byte := BitVec 8

/-- A register value, an ALU operand or result, an address, an instruction word: 32 bits (00_scope.md R7, R10). -/
abbrev Word := BitVec 32

/-- A five-bit register-index field of an instruction word (30_encoding.md R82). -/
abbrev RegIdx := BitVec 5

end Sys2Proof
end

