-- ==== Sys2Proof/Config.lean ====
section
/-! DEFINITION. What an implementation fixes: the constants of 00_scope.md R7 and the parameters of R8 (`END_WORD`, `BUS`).
`PIPELINED`, `END_WORD` and `BUS` are fields of `State` that no step changes; here are the default of `END_WORD` and the forms of
`BUS`. The only functions without a body are the answers of a bus the spec leaves to its builder: no result of an instruction is
left open. -/

namespace Sys2Proof.Config

/-- The default of the parameter `END_WORD`, the end-of-test word (00_scope.md R8, D5; log entry 2).
PRESUMED by the spec itself, which recalls the value from general knowledge. -/
def endWordDefault : Word := 0xDDFFCCFF#32

/-- The link register, written by `l.jal` and read by `l.jr` (00_scope.md R7, 10_state.md R25). -/
def linkRegister : RegIdx := 9#5

/-- The number of bytes of the address space (20_memory.md R50). -/
def addressSpace : Nat := 2 ^ 32

/-- A run of byte addresses, `first` included and `limit` not. -/
structure AddressRange where
  first : Nat
  limit : Nat
deriving DecidableEq, Repr

/-- A bus that is RAM over the whole space, less `absent` ranges where every request fails and `readOnly` ranges where every write
fails, with or without the natural-alignment requirement. -/
structure Ram where
  /-- A request of `n` bytes succeeds only at a multiple of `n`. -/
  naturalAlignment : Bool
  /-- Addresses that do not exist. -/
  absent : List AddressRange
  /-- Addresses whose bytes no write request can change. -/
  readOnly : List AddressRange
deriving DecidableEq, Repr

/-- The parameter `BUS` (00_scope.md R8, 20_memory.md R52). State is plain data, so a bus is named, and the named bus' two functions
stand outside State: written out for RAM, `externalRead` and `externalWrite` for any other bus (log entry 3). -/
inductive Bus where
  /-- RAM; the spec's default `BUS` is one. -/
  | ram (ram : Ram)
  /-- Any other pair of total functions `BUS.read` and `BUS.write`, under a name. -/
  | external (id : Nat)
deriving DecidableEq, Repr

/-- `BUS.read(mem, addr, n)` of the external bus `id`: `n` bytes, or fail (R52). No body: a claim about it holds for every total
function of R52's type (log entry 3). -/
opaque externalRead (id : Nat) (mem : List Host.Cell) (addr n : Nat) : Option (Vector Byte n)

/-- `BUS.write(mem, addr, n, bytes)` of the external bus `id`, `n` the length of `bytes`: the bytes in which the new memory differs from
`mem`, or fail (R52). Every memory differs from another in finitely many bytes, so this is any `ok(mem')`. No body, as `externalRead`. -/
opaque externalWrite (id : Nat) (mem : List Host.Cell) (addr : Nat) (bytes : List Byte) : Option (List (Word × Byte))

/-- The spec's default `BUS`: every address is RAM, natural alignment required (20_memory.md R52). -/
def busDefault : Bus := .ram { naturalAlignment := true, absent := [], readOnly := [] }

end Sys2Proof.Config
end

