-- ==== Sys2Proof/Syntax.lean ====
section
/-! DEFINITION. The instruction set: one constructor per row of spec/opcode_table.json, carrying the named fields of the row
as the bits they are (30_encoding.md R82, R83). `d`, `a`, `b` are the register-index fields D, A, B; `i`, `k`, `l`, `n` the raw
immediate fields I, K, L, N. A store's `i` is the 16-bit field `w[25:21] ++ w[10:0]` (R94). -/

namespace Sys2Proof

/-- The 76 instructions the decoder recognises and the end-of-test word `END` (30_encoding.md R84 to R103). -/
inductive Instr where
  /-- `l.addi` (R171). -/
  | addi (d : RegIdx) (a : RegIdx) (i : BitVec 16)
  /-- `l.ori` (R172). -/
  | ori (d : RegIdx) (a : RegIdx) (i : BitVec 16)
  /-- `l.slli` (R173). -/
  | slli (d : RegIdx) (a : RegIdx) (l : BitVec 6)
  /-- `l.srli` (R174). -/
  | srli (d : RegIdx) (a : RegIdx) (l : BitVec 6)
  /-- `l.srai` (R175). -/
  | srai (d : RegIdx) (a : RegIdx) (l : BitVec 6)
  /-- `l.rori` (R176). -/
  | rori (d : RegIdx) (a : RegIdx) (l : BitVec 6)
  /-- `l.movhi` (R179). -/
  | movhi (d : RegIdx) (k : BitVec 16)
  /-- `l.macrc` (R180). -/
  | macrc (d : RegIdx)
  /-- `l.add` (R181). -/
  | add (d : RegIdx) (a : RegIdx) (b : RegIdx)
  /-- `l.sub` (R182). -/
  | sub (d : RegIdx) (a : RegIdx) (b : RegIdx)
  /-- `l.or` (R183). -/
  | or (d : RegIdx) (a : RegIdx) (b : RegIdx)
  /-- `l.sll` (R184). -/
  | sll (d : RegIdx) (a : RegIdx) (b : RegIdx)
  /-- `l.sra` (R185). -/
  | sra (d : RegIdx) (a : RegIdx) (b : RegIdx)
  /-- `l.and` (R186). -/
  | and (d : RegIdx) (a : RegIdx) (b : RegIdx)
  /-- `l.xor` (R187). -/
  | xor (d : RegIdx) (a : RegIdx) (b : RegIdx)
  /-- `l.cmov` (R188). -/
  | cmov (d : RegIdx) (a : RegIdx) (b : RegIdx)
  /-- `l.ff1` (R189). -/
  | ff1 (d : RegIdx) (a : RegIdx)
  /-- `l.srl` (R190). -/
  | srl (d : RegIdx) (a : RegIdx) (b : RegIdx)
  /-- `l.ror` (R191). -/
  | ror (d : RegIdx) (a : RegIdx) (b : RegIdx)
  /-- `l.exths` (R192). -/
  | exths (d : RegIdx) (a : RegIdx)
  /-- `l.extbs` (R193). -/
  | extbs (d : RegIdx) (a : RegIdx)
  /-- `l.exthz` (R194). -/
  | exthz (d : RegIdx) (a : RegIdx)
  /-- `l.extbz` (R195). -/
  | extbz (d : RegIdx) (a : RegIdx)
  /-- `l.extws` (R196). -/
  | extws (d : RegIdx) (a : RegIdx)
  /-- `l.extwz` (R197). -/
  | extwz (d : RegIdx) (a : RegIdx)
  /-- `l.mul` (R198). -/
  | mul (d : RegIdx) (a : RegIdx) (b : RegIdx)
  /-- `l.div` (R199). -/
  | div (d : RegIdx) (a : RegIdx) (b : RegIdx)
  /-- `l.divu` (R200). -/
  | divu (d : RegIdx) (a : RegIdx) (b : RegIdx)
  /-- `l.mulu` (R201). -/
  | mulu (d : RegIdx) (a : RegIdx) (b : RegIdx)
  /-- `l.sfeq` (R211). -/
  | sfeq (a : RegIdx) (b : RegIdx)
  /-- `l.sfne` (R212). -/
  | sfne (a : RegIdx) (b : RegIdx)
  /-- `l.sfges` (R213). -/
  | sfges (a : RegIdx) (b : RegIdx)
  /-- `l.sfles` (R214). -/
  | sfles (a : RegIdx) (b : RegIdx)
  /-- `l.sfeqi` (R215). -/
  | sfeqi (a : RegIdx) (i : BitVec 16)
  /-- `l.sfnei` (R216). -/
  | sfnei (a : RegIdx) (i : BitVec 16)
  /-- `l.sfgesi` (R217). -/
  | sfgesi (a : RegIdx) (i : BitVec 16)
  /-- `l.sflesi` (R218). -/
  | sflesi (a : RegIdx) (i : BitVec 16)
  /-- `l.sfgtu` (R220). -/
  | sfgtu (a : RegIdx) (b : RegIdx)
  /-- `l.sfgeu` (R221). -/
  | sfgeu (a : RegIdx) (b : RegIdx)
  /-- `l.sfltu` (R222). -/
  | sfltu (a : RegIdx) (b : RegIdx)
  /-- `l.sfleu` (R223). -/
  | sfleu (a : RegIdx) (b : RegIdx)
  /-- `l.sfgts` (R224). -/
  | sfgts (a : RegIdx) (b : RegIdx)
  /-- `l.sflts` (R225). -/
  | sflts (a : RegIdx) (b : RegIdx)
  /-- `l.sfgtui` (R226). -/
  | sfgtui (a : RegIdx) (i : BitVec 16)
  /-- `l.sfgeui` (R227). -/
  | sfgeui (a : RegIdx) (i : BitVec 16)
  /-- `l.sfltui` (R228). -/
  | sfltui (a : RegIdx) (i : BitVec 16)
  /-- `l.sfleui` (R229). -/
  | sfleui (a : RegIdx) (i : BitVec 16)
  /-- `l.sfgtsi` (R230). -/
  | sfgtsi (a : RegIdx) (i : BitVec 16)
  /-- `l.sfltsi` (R231). -/
  | sfltsi (a : RegIdx) (i : BitVec 16)
  /-- `l.lwa` (R242). -/
  | lwa (d : RegIdx) (a : RegIdx) (i : BitVec 16)
  /-- `l.lwz` (R243). -/
  | lwz (d : RegIdx) (a : RegIdx) (i : BitVec 16)
  /-- `l.lws` (R244). -/
  | lws (d : RegIdx) (a : RegIdx) (i : BitVec 16)
  /-- `l.lbz` (R245). -/
  | lbz (d : RegIdx) (a : RegIdx) (i : BitVec 16)
  /-- `l.lbs` (R246). -/
  | lbs (d : RegIdx) (a : RegIdx) (i : BitVec 16)
  /-- `l.lhz` (R247). -/
  | lhz (d : RegIdx) (a : RegIdx) (i : BitVec 16)
  /-- `l.lhs` (R248). -/
  | lhs (d : RegIdx) (a : RegIdx) (i : BitVec 16)
  /-- `l.lf` (R249). -/
  | lf (d : RegIdx) (a : RegIdx) (i : BitVec 16)
  /-- `l.swa` (R250). -/
  | swa (i : BitVec 16) (a : RegIdx) (b : RegIdx)
  /-- `l.sw` (R252). -/
  | sw (i : BitVec 16) (a : RegIdx) (b : RegIdx)
  /-- `l.sb` (R253). -/
  | sb (i : BitVec 16) (a : RegIdx) (b : RegIdx)
  /-- `l.sh` (R254). -/
  | sh (i : BitVec 16) (a : RegIdx) (b : RegIdx)
  /-- `l.sd` (R255). -/
  | sd (i : BitVec 16) (a : RegIdx) (b : RegIdx)
  /-- `l.ld` (R256). -/
  | ld (d : RegIdx) (a : RegIdx) (i : BitVec 16)
  /-- `l.j` (R271). -/
  | j (n : BitVec 26)
  /-- `l.jal` (R272). -/
  | jal (n : BitVec 26)
  /-- `l.bf` (R273). -/
  | bf (n : BitVec 26)
  /-- `l.bnf` (R274). -/
  | bnf (n : BitVec 26)
  /-- `l.jr` (R275). -/
  | jr (b : RegIdx)
  /-- `l.jalr` (R276). -/
  | jalr (b : RegIdx)
  /-- `l.nop` (R290). -/
  | nop (k : BitVec 16)
  /-- `l.msync` (R291). -/
  | msync
  /-- `l.psync` (R292). -/
  | psync
  /-- `l.csync` (R293). -/
  | csync
  /-- `l.sys` (R294). -/
  | sys (k : BitVec 16)
  /-- `l.trap` (R295). -/
  | trap (k : BitVec 16)
  /-- `l.adrp` (R296). -/
  | adrp (d : RegIdx) (n : BitVec 21)
  /-- `END` (R297). -/
  | endOfTest
deriving DecidableEq, Repr

end Sys2Proof
end

