-- ==== Sys2Proof/WellFormed.lean ====
section
/-! DEFINITION. When a term of `Instr` stands for an instruction of the machine as it is delivered (default `END_WORD`). -/

namespace Sys2Proof

/-- Every field of `Instr` has the width of its field in the word, so the one ill-formed term is
`l.sh 31999(r31),r25`: its word is `0xDDFFCCFF`, which with the default `END_WORD` is `END` and never that store
(30_encoding.md R103, 90_conflicts.md C10, 93_implementation_defined.md U12). -/
def Instr.wellFormed (i : Instr) : Bool :=
  i != .sh 0x7CFF#16 31#5 25#5

end Sys2Proof
end

