-- ==== Sys2Proof/Decode.lean ====
section
/-! DEFINITION. The decoder (30_encoding.md), total on every 32-bit word, and after it the encoder, written from the same tables.
`resolve` is `getOpcode` with `getOpcode2` and `getOpcode3` as one flat enumeration of the mnemonics, which R101 allows;
`operandsOf` extracts the fields of R82, R83; `getImmediate` is R90 to R97. -/

namespace Sys2Proof

/-! ### Bit fields and extensions (00_scope.md R9, R10) -/

/-- `A = w[20:16]` (R82). -/
def fieldA (w : Word) : RegIdx := w.extractLsb' 16 5

/-- `B = w[15:11]` (R82). -/
def fieldB (w : Word) : RegIdx := w.extractLsb' 11 5

/-- `D = w[25:21]` (R82). -/
def fieldD (w : Word) : RegIdx := w.extractLsb' 21 5

/-- `w[15:0]`, the 16-bit immediate field (R91, R96). -/
def imm16 (w : Word) : BitVec 16 := w.extractLsb' 0 16

/-- `w[5:0]`, the shift-amount field (R92). -/
def imm6 (w : Word) : BitVec 6 := w.extractLsb' 0 6

/-- `w[25:0]`, the jump field (R93). -/
def imm26 (w : Word) : BitVec 26 := w.extractLsb' 0 26

/-- `w[20:0]`, the address-computation field (R95). -/
def imm21 (w : Word) : BitVec 21 := w.extractLsb' 0 21

/-- `w[25:21] ++ w[10:0]`, the split field of a store (R94). -/
def storeOffset (w : Word) : BitVec 16 := w.extractLsb' 21 5 ++ w.extractLsb' 0 11

/-- `sext_N(v)`: the 32-bit value whose signed reading is that of `v` (R10). -/
def sext {n : Nat} (v : BitVec n) : Word := v.signExtend 32

/-- `zext_N(v)`: the 32-bit value equal to the unsigned reading of `v` (R10). -/
def zext {n : Nat} (v : BitVec n) : Word := v.setWidth 32

/-- The 32-bit number of four bytes in big-endian order, `b0` at the lowest address (20_memory.md R57). -/
def wordOfBytes (b0 b1 b2 b3 : Byte) : Word := b0 ++ b1 ++ b2 ++ b3

/-- The four bytes of a word, most significant first (20_memory.md R57). -/
def bytesOfWord (w : Word) : List Byte :=
  [w.extractLsb' 24 8, w.extractLsb' 16 8, w.extractLsb' 8 8, w.extractLsb' 0 8]

/-! ### The resolved instruction -/

/-- The mnemonics of spec/opcode_table.json: the flat enumeration of R101, the `instr` that travels in the latches (R312). -/
inductive Mnemonic where
  | addi | ori | slli | srli | srai | rori | movhi | macrc | add | sub | or | sll | sra | and | xor | cmov | ff1 | srl
  | ror | exths | extbs | exthz | extbz | extws | extwz | mul | div | divu | mulu | sfeq | sfne | sfges | sfles | sfeqi
  | sfnei | sfgesi | sflesi | sfgtu | sfgeu | sfltu | sfleu | sfgts | sflts | sfgtui | sfgeui | sfltui | sfleui
  | sfgtsi | sfltsi | lwa | lwz | lws | lbz | lbs | lhz | lhs | lf | swa | sw | sb | sh | sd | ld | j | jal | bf | bnf
  | jr | jalr | nop | msync | psync | csync | sys | trap | adrp | endOfTest
deriving DecidableEq, Repr

/-- Why a word resolves to no instruction (R106, R107). The decode stage turns each of them into the one condition
`IllegalInstruction`; the names say which check failed (log entry 19). -/
inductive Reject where
  /-- `w[31:26]` is in none of the tables (R107). -/
  | primaryOpcode
  /-- `w[31:26] = 0x05` with `w[25:24]` not `01` (R85, R107). -/
  | nopWindow
  /-- `w[31:26] = 0x08` and none of the five words and windows of R86, R88. -/
  | systemWindow
  /-- `w[31:26]` is `0x2F` or `0x39` and the condition code is outside R87. -/
  | compareCode
  /-- `w[31:26] = 0x38` and no row of R100 matches. -/
  | addFamily
  /-- Fewer than four bytes were given (R80). -/
  | truncated
deriving DecidableEq, Repr

/-- Instruction types (R102). -/
inductive InstrType where
  | typeR | typeI | typeS | typeSH | typeJ | typeF | noType
deriving DecidableEq, Repr

/-- `getInstructionType`: the type column of R83, R87, R89 (R102). -/
def instrType : Mnemonic → InstrType
  | .add | .sub | .or | .sll | .sra | .and | .xor | .cmov | .ff1 | .srl | .ror | .exths | .extbs | .exthz | .extbz
  | .extws | .extwz | .mul | .div | .divu | .mulu | .sfeq | .sfne | .sfges | .sfles | .sfgtu | .sfgeu | .sfltu | .sfleu
  | .sfgts | .sflts => .typeR
  | .addi | .ori | .lwa | .lwz | .lws | .lbz | .lbs | .lhz | .lhs | .lf | .ld => .typeI
  | .swa | .sw | .sb | .sh | .sd => .typeS
  | .slli | .srli | .srai | .rori => .typeSH
  | .j | .jal | .bf | .bnf => .typeJ
  | .sfeqi | .sfnei | .sfgesi | .sflesi | .sfgtui | .sfgeui | .sfltui | .sfleui | .sfgtsi | .sfltsi => .typeF
  | .movhi | .macrc | .jr | .jalr | .nop | .msync | .psync | .csync | .sys | .trap | .adrp | .endOfTest => .noType

/-! ### `getOpcode`, `getOpcode2`, `getOpcode3` -/

/-- Check (c), the top 11 bits: the set-flag compares (R87). -/
def compareOpcode (w : Word) : Option Mnemonic :=
  match w.extractLsb' 21 11 with
  | 0x5E0#11 => some .sfeqi
  | 0x5E1#11 => some .sfnei
  | 0x5E2#11 => some .sfgtui
  | 0x5E3#11 => some .sfgeui
  | 0x5E4#11 => some .sfltui
  | 0x5E5#11 => some .sfleui
  | 0x5EA#11 => some .sfgtsi
  | 0x5EB#11 => some .sfgesi
  | 0x5EC#11 => some .sfltsi
  | 0x5ED#11 => some .sflesi
  | 0x720#11 => some .sfeq
  | 0x721#11 => some .sfne
  | 0x722#11 => some .sfgtu
  | 0x723#11 => some .sfgeu
  | 0x724#11 => some .sfltu
  | 0x725#11 => some .sfleu
  | 0x72A#11 => some .sfgts
  | 0x72B#11 => some .sfges
  | 0x72C#11 => some .sflts
  | 0x72D#11 => some .sfles
  | _ => none

/-- The shift-immediate family, selected by `w[7:6]` (R98). -/
def shiftImmediateOpcode (w : Word) : Mnemonic :=
  match w.extractLsb' 6 2 with
  | 0#2 => .slli
  | 1#2 => .srli
  | 2#2 => .srai
  | _ => .rori

/-- The ADD family: `f98 = w[9:8]`, `f30 = w[3:0]` and, where the row asks for it, `f76 = w[7:6]` (R100). -/
def addFamilyOpcode (w : Word) : Option Mnemonic :=
  match w.extractLsb' 8 2, w.extractLsb' 0 4 with
  | 0#2, 0x0#4 => some .add
  | 0#2, 0x2#4 => some .sub
  | 0#2, 0x3#4 => some .and
  | 0#2, 0x4#4 => some .or
  | 0#2, 0x5#4 => some .xor
  | 0#2, 0xE#4 => some .cmov
  | 0#2, 0xF#4 => some .ff1
  | 0#2, 0x8#4 =>
    match w.extractLsb' 6 2 with
    | 0#2 => some .sll
    | 1#2 => some .srl
    | 2#2 => some .sra
    | _ => some .ror
  | 0#2, 0xC#4 =>
    match w.extractLsb' 6 2 with
    | 0#2 => some .exths
    | 1#2 => some .extbs
    | 2#2 => some .exthz
    | _ => some .extbz
  | 0#2, 0xD#4 =>
    match w.extractLsb' 6 2 with
    | 0#2 => some .extws
    | 1#2 => some .extwz
    | _ => none
  | 3#2, 0x6#4 => some .mul
  | 3#2, 0x9#4 => some .div
  | 3#2, 0xA#4 => some .divu
  | 3#2, 0xB#4 => some .mulu
  | _, _ => none

/-- Check (e), the top 6 bits: all remaining opcodes (R89), with the secondary windows of R98, R99, R100 and the
rejections of R107. -/
def primaryOpcode (w : Word) : Except Reject Mnemonic :=
  match w.extractLsb' 26 6 with
  | 0x00#6 => .ok .j
  | 0x01#6 => .ok .jal
  | 0x02#6 => .ok .adrp
  | 0x03#6 => .ok .bnf
  | 0x04#6 => .ok .bf
  | 0x05#6 => .error .nopWindow
  | 0x06#6 => .ok (if w.extractLsb' 16 1 = 0#1 then .movhi else .macrc)
  | 0x08#6 => .error .systemWindow
  | 0x11#6 => .ok .jr
  | 0x12#6 => .ok .jalr
  | 0x1A#6 => .ok .lf
  | 0x1B#6 => .ok .lwa
  | 0x20#6 => .ok .ld
  | 0x21#6 => .ok .lwz
  | 0x22#6 => .ok .lws
  | 0x23#6 => .ok .lbz
  | 0x24#6 => .ok .lbs
  | 0x25#6 => .ok .lhz
  | 0x26#6 => .ok .lhs
  | 0x27#6 => .ok .addi
  | 0x2A#6 => .ok .ori
  | 0x2E#6 => .ok (shiftImmediateOpcode w)
  | 0x2F#6 => .error .compareCode
  | 0x33#6 => .ok .swa
  | 0x34#6 => .ok .sd
  | 0x35#6 => .ok .sw
  | 0x36#6 => .ok .sb
  | 0x37#6 => .ok .sh
  | 0x38#6 =>
    match addFamilyOpcode w with
    | some m => .ok m
    | none => .error .addFamily
  | 0x39#6 => .error .compareCode
  | _ => .error .primaryOpcode

/-- The order of checks: (0) `END_WORD`, (a) the no-op byte, (b) the three full words, (c) the compare window, (d) the two
system windows, (e) the primary table (R84 to R89, R103). A function of the word and of `END_WORD` alone (R104). -/
def resolve (endWord w : Word) : Except Reject Mnemonic :=
  if w = endWord then .ok .endOfTest
  else if w.extractLsb' 24 8 = 0x15#8 then .ok .nop
  else if w = 0x22000000#32 then .ok .msync
  else if w = 0x22800000#32 then .ok .psync
  else if w = 0x23000000#32 then .ok .csync
  else
    match compareOpcode w with
    | some m => .ok m
    | none =>
      if w.extractLsb' 16 16 = 0x2000#16 then .ok .sys
      else if w.extractLsb' 16 16 = 0x2100#16 then .ok .trap
      else primaryOpcode w

/-! ### Fields and immediate -/

/-- The instruction a mnemonic makes of the word's fields (R82, R83); every other bit is ignored (R105). -/
def operandsOf (m : Mnemonic) (w : Word) : Instr :=
  match m with
  | .addi => .addi (fieldD w) (fieldA w) (imm16 w)
  | .ori => .ori (fieldD w) (fieldA w) (imm16 w)
  | .slli => .slli (fieldD w) (fieldA w) (imm6 w)
  | .srli => .srli (fieldD w) (fieldA w) (imm6 w)
  | .srai => .srai (fieldD w) (fieldA w) (imm6 w)
  | .rori => .rori (fieldD w) (fieldA w) (imm6 w)
  | .movhi => .movhi (fieldD w) (imm16 w)
  | .macrc => .macrc (fieldD w)
  | .add => .add (fieldD w) (fieldA w) (fieldB w)
  | .sub => .sub (fieldD w) (fieldA w) (fieldB w)
  | .or => .or (fieldD w) (fieldA w) (fieldB w)
  | .sll => .sll (fieldD w) (fieldA w) (fieldB w)
  | .sra => .sra (fieldD w) (fieldA w) (fieldB w)
  | .and => .and (fieldD w) (fieldA w) (fieldB w)
  | .xor => .xor (fieldD w) (fieldA w) (fieldB w)
  | .cmov => .cmov (fieldD w) (fieldA w) (fieldB w)
  | .ff1 => .ff1 (fieldD w) (fieldA w)
  | .srl => .srl (fieldD w) (fieldA w) (fieldB w)
  | .ror => .ror (fieldD w) (fieldA w) (fieldB w)
  | .exths => .exths (fieldD w) (fieldA w)
  | .extbs => .extbs (fieldD w) (fieldA w)
  | .exthz => .exthz (fieldD w) (fieldA w)
  | .extbz => .extbz (fieldD w) (fieldA w)
  | .extws => .extws (fieldD w) (fieldA w)
  | .extwz => .extwz (fieldD w) (fieldA w)
  | .mul => .mul (fieldD w) (fieldA w) (fieldB w)
  | .div => .div (fieldD w) (fieldA w) (fieldB w)
  | .divu => .divu (fieldD w) (fieldA w) (fieldB w)
  | .mulu => .mulu (fieldD w) (fieldA w) (fieldB w)
  | .sfeq => .sfeq (fieldA w) (fieldB w)
  | .sfne => .sfne (fieldA w) (fieldB w)
  | .sfges => .sfges (fieldA w) (fieldB w)
  | .sfles => .sfles (fieldA w) (fieldB w)
  | .sfeqi => .sfeqi (fieldA w) (imm16 w)
  | .sfnei => .sfnei (fieldA w) (imm16 w)
  | .sfgesi => .sfgesi (fieldA w) (imm16 w)
  | .sflesi => .sflesi (fieldA w) (imm16 w)
  | .sfgtu => .sfgtu (fieldA w) (fieldB w)
  | .sfgeu => .sfgeu (fieldA w) (fieldB w)
  | .sfltu => .sfltu (fieldA w) (fieldB w)
  | .sfleu => .sfleu (fieldA w) (fieldB w)
  | .sfgts => .sfgts (fieldA w) (fieldB w)
  | .sflts => .sflts (fieldA w) (fieldB w)
  | .sfgtui => .sfgtui (fieldA w) (imm16 w)
  | .sfgeui => .sfgeui (fieldA w) (imm16 w)
  | .sfltui => .sfltui (fieldA w) (imm16 w)
  | .sfleui => .sfleui (fieldA w) (imm16 w)
  | .sfgtsi => .sfgtsi (fieldA w) (imm16 w)
  | .sfltsi => .sfltsi (fieldA w) (imm16 w)
  | .lwa => .lwa (fieldD w) (fieldA w) (imm16 w)
  | .lwz => .lwz (fieldD w) (fieldA w) (imm16 w)
  | .lws => .lws (fieldD w) (fieldA w) (imm16 w)
  | .lbz => .lbz (fieldD w) (fieldA w) (imm16 w)
  | .lbs => .lbs (fieldD w) (fieldA w) (imm16 w)
  | .lhz => .lhz (fieldD w) (fieldA w) (imm16 w)
  | .lhs => .lhs (fieldD w) (fieldA w) (imm16 w)
  | .lf => .lf (fieldD w) (fieldA w) (imm16 w)
  | .swa => .swa (storeOffset w) (fieldA w) (fieldB w)
  | .sw => .sw (storeOffset w) (fieldA w) (fieldB w)
  | .sb => .sb (storeOffset w) (fieldA w) (fieldB w)
  | .sh => .sh (storeOffset w) (fieldA w) (fieldB w)
  | .sd => .sd (storeOffset w) (fieldA w) (fieldB w)
  | .ld => .ld (fieldD w) (fieldA w) (imm16 w)
  | .j => .j (imm26 w)
  | .jal => .jal (imm26 w)
  | .bf => .bf (imm26 w)
  | .bnf => .bnf (imm26 w)
  | .jr => .jr (fieldB w)
  | .jalr => .jalr (fieldB w)
  | .nop => .nop (imm16 w)
  | .msync => .msync
  | .psync => .psync
  | .csync => .csync
  | .sys => .sys (imm16 w)
  | .trap => .trap (imm16 w)
  | .adrp => .adrp (fieldD w) (imm21 w)
  | .endOfTest => .endOfTest

/-- `getImmediate` (R90 to R97): the two overrides first, then the rule of the instruction's type. -/
def getImmediate (m : Mnemonic) (w : Word) : Word :=
  if m = .adrp then sext (imm21 w)
  else if m = .movhi then zext (imm16 w)
  else
    match instrType m with
    | .typeI => sext (imm16 w)
    | .typeF => sext (imm16 w)
    | .noType => sext (imm16 w)
    | .typeR => sext (imm16 w)
    | .typeSH => sext (imm6 w)
    | .typeJ => sext (imm26 w)
    | .typeS => sext (storeOffset w)

/-! ### The decoder -/

/-- The decoder: the instruction of a word, or the name of the check that found none (R81, R84, R106). -/
def decode (endWord w : Word) : Except Reject Instr :=
  match resolve endWord w with
  | .ok m => .ok (operandsOf m w)
  | .error r => .error r

/-- The decoder on bytes as memory holds them: four bytes, big-endian, make one instruction (R80, 20_memory.md R57); the rest of
the bytes is handed back. -/
def decodeBytes (endWord : Word) : List Byte → Except Reject (Instr × List Byte)
  | b0 :: b1 :: b2 :: b3 :: rest =>
    match decode endWord (wordOfBytes b0 b1 b2 b3) with
    | .ok i => .ok (i, rest)
    | .error r => .error r
  | _ => .error .truncated

/-- The instruction the decoder reads from the word `w`, numbered as spec/opcode_table.json numbers it, with the bits above
`nbits` zero, laid out as the hardware stores it; `END_WORD` has its default. -/
def decodeTableWord (nbits w : Nat) : Option Instr :=
  match decodeBytes Config.endWordDefault (bytesOfWord (BitVec.ofNat 32 (w % 2 ^ nbits))) with
  | .ok (i, _) => some i
  | .error _ => none

/-! ### The encoder -/

/-- The mnemonic of an instruction. -/
def Instr.mnemonic (i : Instr) : Mnemonic :=
  match i with
  | .addi .. => .addi
  | .ori .. => .ori
  | .slli .. => .slli
  | .srli .. => .srli
  | .srai .. => .srai
  | .rori .. => .rori
  | .movhi .. => .movhi
  | .macrc .. => .macrc
  | .add .. => .add
  | .sub .. => .sub
  | .or .. => .or
  | .sll .. => .sll
  | .sra .. => .sra
  | .and .. => .and
  | .xor .. => .xor
  | .cmov .. => .cmov
  | .ff1 .. => .ff1
  | .srl .. => .srl
  | .ror .. => .ror
  | .exths .. => .exths
  | .extbs .. => .extbs
  | .exthz .. => .exthz
  | .extbz .. => .extbz
  | .extws .. => .extws
  | .extwz .. => .extwz
  | .mul .. => .mul
  | .div .. => .div
  | .divu .. => .divu
  | .mulu .. => .mulu
  | .sfeq .. => .sfeq
  | .sfne .. => .sfne
  | .sfges .. => .sfges
  | .sfles .. => .sfles
  | .sfeqi .. => .sfeqi
  | .sfnei .. => .sfnei
  | .sfgesi .. => .sfgesi
  | .sflesi .. => .sflesi
  | .sfgtu .. => .sfgtu
  | .sfgeu .. => .sfgeu
  | .sfltu .. => .sfltu
  | .sfleu .. => .sfleu
  | .sfgts .. => .sfgts
  | .sflts .. => .sflts
  | .sfgtui .. => .sfgtui
  | .sfgeui .. => .sfgeui
  | .sfltui .. => .sfltui
  | .sfleui .. => .sfleui
  | .sfgtsi .. => .sfgtsi
  | .sfltsi .. => .sfltsi
  | .lwa .. => .lwa
  | .lwz .. => .lwz
  | .lws .. => .lws
  | .lbz .. => .lbz
  | .lbs .. => .lbs
  | .lhz .. => .lhz
  | .lhs .. => .lhs
  | .lf .. => .lf
  | .swa .. => .swa
  | .sw .. => .sw
  | .sb .. => .sb
  | .sh .. => .sh
  | .sd .. => .sd
  | .ld .. => .ld
  | .j .. => .j
  | .jal .. => .jal
  | .bf .. => .bf
  | .bnf .. => .bnf
  | .jr .. => .jr
  | .jalr .. => .jalr
  | .nop .. => .nop
  | .msync => .msync
  | .psync => .psync
  | .csync => .csync
  | .sys .. => .sys
  | .trap .. => .trap
  | .adrp .. => .adrp
  | .endOfTest => .endOfTest

/-- A field placed with its least significant bit at bit `lo` of the word (R9). -/
def put {n : Nat} (v : BitVec n) (lo : Nat) : Word := v.setWidth 32 <<< lo

/-- The word of an instruction, field by field from the layouts of R83 and the opcode windows of R85 to R89 and R98 to R100.
Every bit the decoder ignores is written as 0 (log entry 18). -/
def encode (endWord : Word) (i : Instr) : Word :=
  match i with
  | .addi d a i => put 0x27#6 26 ||| put d 21 ||| put a 16 ||| put i 0
  | .ori d a i => put 0x2A#6 26 ||| put d 21 ||| put a 16 ||| put i 0
  | .slli d a l => put 0x2E#6 26 ||| put d 21 ||| put a 16 ||| put 0x0#2 6 ||| put l 0
  | .srli d a l => put 0x2E#6 26 ||| put d 21 ||| put a 16 ||| put 0x1#2 6 ||| put l 0
  | .srai d a l => put 0x2E#6 26 ||| put d 21 ||| put a 16 ||| put 0x2#2 6 ||| put l 0
  | .rori d a l => put 0x2E#6 26 ||| put d 21 ||| put a 16 ||| put 0x3#2 6 ||| put l 0
  | .movhi d k => put 0x6#6 26 ||| put d 21 ||| put 0x0#1 16 ||| put k 0
  | .macrc d => put 0x6#6 26 ||| put d 21 ||| put 0x1#1 16
  | .add d a b => put 0x38#6 26 ||| put d 21 ||| put a 16 ||| put b 11 ||| put 0x0#2 8 ||| put 0x0#4 0
  | .sub d a b => put 0x38#6 26 ||| put d 21 ||| put a 16 ||| put b 11 ||| put 0x0#2 8 ||| put 0x2#4 0
  | .or d a b => put 0x38#6 26 ||| put d 21 ||| put a 16 ||| put b 11 ||| put 0x0#2 8 ||| put 0x4#4 0
  | .sll d a b => put 0x38#6 26 ||| put d 21 ||| put a 16 ||| put b 11 ||| put 0x0#4 6 ||| put 0x8#4 0
  | .sra d a b => put 0x38#6 26 ||| put d 21 ||| put a 16 ||| put b 11 ||| put 0x2#4 6 ||| put 0x8#4 0
  | .and d a b => put 0x38#6 26 ||| put d 21 ||| put a 16 ||| put b 11 ||| put 0x0#2 8 ||| put 0x3#4 0
  | .xor d a b => put 0x38#6 26 ||| put d 21 ||| put a 16 ||| put b 11 ||| put 0x0#2 8 ||| put 0x5#4 0
  | .cmov d a b => put 0x38#6 26 ||| put d 21 ||| put a 16 ||| put b 11 ||| put 0x0#2 8 ||| put 0xE#4 0
  | .ff1 d a => put 0x38#6 26 ||| put d 21 ||| put a 16 ||| put 0x0#2 8 ||| put 0xF#4 0
  | .srl d a b => put 0x38#6 26 ||| put d 21 ||| put a 16 ||| put b 11 ||| put 0x1#4 6 ||| put 0x8#4 0
  | .ror d a b => put 0x38#6 26 ||| put d 21 ||| put a 16 ||| put b 11 ||| put 0x3#4 6 ||| put 0x8#4 0
  | .exths d a => put 0x38#6 26 ||| put d 21 ||| put a 16 ||| put 0x0#4 6 ||| put 0xC#4 0
  | .extbs d a => put 0x38#6 26 ||| put d 21 ||| put a 16 ||| put 0x1#4 6 ||| put 0xC#4 0
  | .exthz d a => put 0x38#6 26 ||| put d 21 ||| put a 16 ||| put 0x2#4 6 ||| put 0xC#4 0
  | .extbz d a => put 0x38#6 26 ||| put d 21 ||| put a 16 ||| put 0x3#4 6 ||| put 0xC#4 0
  | .extws d a => put 0x38#6 26 ||| put d 21 ||| put a 16 ||| put 0x0#4 6 ||| put 0xD#4 0
  | .extwz d a => put 0x38#6 26 ||| put d 21 ||| put a 16 ||| put 0x1#4 6 ||| put 0xD#4 0
  | .mul d a b => put 0x38#6 26 ||| put d 21 ||| put a 16 ||| put b 11 ||| put 0x3#2 8 ||| put 0x6#4 0
  | .div d a b => put 0x38#6 26 ||| put d 21 ||| put a 16 ||| put b 11 ||| put 0x3#2 8 ||| put 0x9#4 0
  | .divu d a b => put 0x38#6 26 ||| put d 21 ||| put a 16 ||| put b 11 ||| put 0x3#2 8 ||| put 0xA#4 0
  | .mulu d a b => put 0x38#6 26 ||| put d 21 ||| put a 16 ||| put b 11 ||| put 0x3#2 8 ||| put 0xB#4 0
  | .sfeq a b => put 0x720#11 21 ||| put a 16 ||| put b 11
  | .sfne a b => put 0x721#11 21 ||| put a 16 ||| put b 11
  | .sfges a b => put 0x72B#11 21 ||| put a 16 ||| put b 11
  | .sfles a b => put 0x72D#11 21 ||| put a 16 ||| put b 11
  | .sfeqi a i => put 0x5E0#11 21 ||| put a 16 ||| put i 0
  | .sfnei a i => put 0x5E1#11 21 ||| put a 16 ||| put i 0
  | .sfgesi a i => put 0x5EB#11 21 ||| put a 16 ||| put i 0
  | .sflesi a i => put 0x5ED#11 21 ||| put a 16 ||| put i 0
  | .sfgtu a b => put 0x722#11 21 ||| put a 16 ||| put b 11
  | .sfgeu a b => put 0x723#11 21 ||| put a 16 ||| put b 11
  | .sfltu a b => put 0x724#11 21 ||| put a 16 ||| put b 11
  | .sfleu a b => put 0x725#11 21 ||| put a 16 ||| put b 11
  | .sfgts a b => put 0x72A#11 21 ||| put a 16 ||| put b 11
  | .sflts a b => put 0x72C#11 21 ||| put a 16 ||| put b 11
  | .sfgtui a i => put 0x5E2#11 21 ||| put a 16 ||| put i 0
  | .sfgeui a i => put 0x5E3#11 21 ||| put a 16 ||| put i 0
  | .sfltui a i => put 0x5E4#11 21 ||| put a 16 ||| put i 0
  | .sfleui a i => put 0x5E5#11 21 ||| put a 16 ||| put i 0
  | .sfgtsi a i => put 0x5EA#11 21 ||| put a 16 ||| put i 0
  | .sfltsi a i => put 0x5EC#11 21 ||| put a 16 ||| put i 0
  | .lwa d a i => put 0x1B#6 26 ||| put d 21 ||| put a 16 ||| put i 0
  | .lwz d a i => put 0x21#6 26 ||| put d 21 ||| put a 16 ||| put i 0
  | .lws d a i => put 0x22#6 26 ||| put d 21 ||| put a 16 ||| put i 0
  | .lbz d a i => put 0x23#6 26 ||| put d 21 ||| put a 16 ||| put i 0
  | .lbs d a i => put 0x24#6 26 ||| put d 21 ||| put a 16 ||| put i 0
  | .lhz d a i => put 0x25#6 26 ||| put d 21 ||| put a 16 ||| put i 0
  | .lhs d a i => put 0x26#6 26 ||| put d 21 ||| put a 16 ||| put i 0
  | .lf d a i => put 0x1A#6 26 ||| put d 21 ||| put a 16 ||| put i 0
  | .swa i a b => put 0x33#6 26 ||| put (i.extractLsb' 11 5) 21 ||| put a 16 ||| put b 11 ||| put (i.extractLsb' 0 11) 0
  | .sw i a b => put 0x35#6 26 ||| put (i.extractLsb' 11 5) 21 ||| put a 16 ||| put b 11 ||| put (i.extractLsb' 0 11) 0
  | .sb i a b => put 0x36#6 26 ||| put (i.extractLsb' 11 5) 21 ||| put a 16 ||| put b 11 ||| put (i.extractLsb' 0 11) 0
  | .sh i a b => put 0x37#6 26 ||| put (i.extractLsb' 11 5) 21 ||| put a 16 ||| put b 11 ||| put (i.extractLsb' 0 11) 0
  | .sd i a b => put 0x34#6 26 ||| put (i.extractLsb' 11 5) 21 ||| put a 16 ||| put b 11 ||| put (i.extractLsb' 0 11) 0
  | .ld d a i => put 0x20#6 26 ||| put d 21 ||| put a 16 ||| put i 0
  | .j n => put 0x0#6 26 ||| put n 0
  | .jal n => put 0x1#6 26 ||| put n 0
  | .bf n => put 0x4#6 26 ||| put n 0
  | .bnf n => put 0x3#6 26 ||| put n 0
  | .jr b => put 0x11#6 26 ||| put b 11
  | .jalr b => put 0x12#6 26 ||| put b 11
  | .nop k => put 0x15#8 24 ||| put k 0
  | .msync => 0x22000000#32
  | .psync => 0x22800000#32
  | .csync => 0x23000000#32
  | .sys k => put 0x2000#16 16 ||| put k 0
  | .trap k => put 0x2100#16 16 ||| put k 0
  | .adrp d n => put 0x2#6 26 ||| put d 21 ||| put n 0
  | .endOfTest => endWord

/-- The bytes of an instruction in memory, most significant first (20_memory.md R57). -/
def encodeBytes (endWord : Word) (i : Instr) : List Byte := bytesOfWord (encode endWord i)

/-! ### The opcode table -/

/-- The `match` and `mask` columns of spec/opcode_table.json: a word `w` other than `END_WORD` is the instruction exactly when
`w &&& mask = match`. `END` is not in the table by mask but by comparison with `END_WORD` (R103). -/
def opcodeRow (endWord : Word) (m : Mnemonic) : Word × Word :=
  match m with
  | .addi => (0x9C000000#32, 0xFC000000#32)
  | .ori => (0xA8000000#32, 0xFC000000#32)
  | .slli => (0xB8000000#32, 0xFC0000C0#32)
  | .srli => (0xB8000040#32, 0xFC0000C0#32)
  | .srai => (0xB8000080#32, 0xFC0000C0#32)
  | .rori => (0xB80000C0#32, 0xFC0000C0#32)
  | .movhi => (0x18000000#32, 0xFC010000#32)
  | .macrc => (0x18010000#32, 0xFC010000#32)
  | .add => (0xE0000000#32, 0xFC00030F#32)
  | .sub => (0xE0000002#32, 0xFC00030F#32)
  | .or => (0xE0000004#32, 0xFC00030F#32)
  | .sll => (0xE0000008#32, 0xFC0003CF#32)
  | .sra => (0xE0000088#32, 0xFC0003CF#32)
  | .and => (0xE0000003#32, 0xFC00030F#32)
  | .xor => (0xE0000005#32, 0xFC00030F#32)
  | .cmov => (0xE000000E#32, 0xFC00030F#32)
  | .ff1 => (0xE000000F#32, 0xFC00030F#32)
  | .srl => (0xE0000048#32, 0xFC0003CF#32)
  | .ror => (0xE00000C8#32, 0xFC0003CF#32)
  | .exths => (0xE000000C#32, 0xFC0003CF#32)
  | .extbs => (0xE000004C#32, 0xFC0003CF#32)
  | .exthz => (0xE000008C#32, 0xFC0003CF#32)
  | .extbz => (0xE00000CC#32, 0xFC0003CF#32)
  | .extws => (0xE000000D#32, 0xFC0003CF#32)
  | .extwz => (0xE000004D#32, 0xFC0003CF#32)
  | .mul => (0xE0000306#32, 0xFC00030F#32)
  | .div => (0xE0000309#32, 0xFC00030F#32)
  | .divu => (0xE000030A#32, 0xFC00030F#32)
  | .mulu => (0xE000030B#32, 0xFC00030F#32)
  | .sfeq => (0xE4000000#32, 0xFFE00000#32)
  | .sfne => (0xE4200000#32, 0xFFE00000#32)
  | .sfges => (0xE5600000#32, 0xFFE00000#32)
  | .sfles => (0xE5A00000#32, 0xFFE00000#32)
  | .sfeqi => (0xBC000000#32, 0xFFE00000#32)
  | .sfnei => (0xBC200000#32, 0xFFE00000#32)
  | .sfgesi => (0xBD600000#32, 0xFFE00000#32)
  | .sflesi => (0xBDA00000#32, 0xFFE00000#32)
  | .sfgtu => (0xE4400000#32, 0xFFE00000#32)
  | .sfgeu => (0xE4600000#32, 0xFFE00000#32)
  | .sfltu => (0xE4800000#32, 0xFFE00000#32)
  | .sfleu => (0xE4A00000#32, 0xFFE00000#32)
  | .sfgts => (0xE5400000#32, 0xFFE00000#32)
  | .sflts => (0xE5800000#32, 0xFFE00000#32)
  | .sfgtui => (0xBC400000#32, 0xFFE00000#32)
  | .sfgeui => (0xBC600000#32, 0xFFE00000#32)
  | .sfltui => (0xBC800000#32, 0xFFE00000#32)
  | .sfleui => (0xBCA00000#32, 0xFFE00000#32)
  | .sfgtsi => (0xBD400000#32, 0xFFE00000#32)
  | .sfltsi => (0xBD800000#32, 0xFFE00000#32)
  | .lwa => (0x6C000000#32, 0xFC000000#32)
  | .lwz => (0x84000000#32, 0xFC000000#32)
  | .lws => (0x88000000#32, 0xFC000000#32)
  | .lbz => (0x8C000000#32, 0xFC000000#32)
  | .lbs => (0x90000000#32, 0xFC000000#32)
  | .lhz => (0x94000000#32, 0xFC000000#32)
  | .lhs => (0x98000000#32, 0xFC000000#32)
  | .lf => (0x68000000#32, 0xFC000000#32)
  | .swa => (0xCC000000#32, 0xFC000000#32)
  | .sw => (0xD4000000#32, 0xFC000000#32)
  | .sb => (0xD8000000#32, 0xFC000000#32)
  | .sh => (0xDC000000#32, 0xFC000000#32)
  | .sd => (0xD0000000#32, 0xFC000000#32)
  | .ld => (0x80000000#32, 0xFC000000#32)
  | .j => (0x00000000#32, 0xFC000000#32)
  | .jal => (0x04000000#32, 0xFC000000#32)
  | .bf => (0x10000000#32, 0xFC000000#32)
  | .bnf => (0x0C000000#32, 0xFC000000#32)
  | .jr => (0x44000000#32, 0xFC000000#32)
  | .jalr => (0x48000000#32, 0xFC000000#32)
  | .nop => (0x15000000#32, 0xFF000000#32)
  | .msync => (0x22000000#32, 0xFFFFFFFF#32)
  | .psync => (0x22800000#32, 0xFFFFFFFF#32)
  | .csync => (0x23000000#32, 0xFFFFFFFF#32)
  | .sys => (0x20000000#32, 0xFFFF0000#32)
  | .trap => (0x21000000#32, 0xFFFF0000#32)
  | .adrp => (0x08000000#32, 0xFC000000#32)
  | .endOfTest => (endWord, 0xFFFFFFFF#32)

/-- The bits of a word that make it this instruction with these fields: the opcode windows of R85 to R89 and R98 to R100 and the
fields the instruction carries (R83). Every other bit is reserved and ignored (R105). -/
def significantBits (m : Mnemonic) : Word :=
  match m with
  | .addi | .ori | .sfeqi | .sfnei | .sfgesi | .sflesi | .sfgtui | .sfgeui | .sfltui | .sfleui | .sfgtsi | .sfltsi |
  .lwa | .lwz | .lws | .lbz | .lbs | .lhz | .lhs | .lf | .swa | .sw | .sb | .sh | .sd | .ld | .j | .jal | .bf | .bnf |
  .msync | .psync | .csync | .sys | .trap | .adrp | .endOfTest => 0xFFFFFFFF#32
  | .slli | .srli | .srai | .rori => 0xFFFF00FF#32
  | .movhi => 0xFFE1FFFF#32
  | .macrc => 0xFFE10000#32
  | .add | .sub | .or | .and | .xor | .cmov | .mul | .div | .divu | .mulu => 0xFFFFFB0F#32
  | .sll | .sra | .srl | .ror => 0xFFFFFBCF#32
  | .ff1 => 0xFFFF030F#32
  | .exths | .extbs | .exthz | .extbz | .extws | .extwz => 0xFFFF03CF#32
  | .sfeq | .sfne | .sfges | .sfles | .sfgtu | .sfgeu | .sfltu | .sfleu | .sfgts | .sflts => 0xFFFFF800#32
  | .jr | .jalr => 0xFC00F800#32
  | .nop => 0xFF00FFFF#32

/-- The word `w` is in row `m` of the opcode table. -/
def inOpcodeRow (endWord : Word) (m : Mnemonic) (w : Word) : Bool :=
  w &&& (opcodeRow endWord m).2 == (opcodeRow endWord m).1

end Sys2Proof
end

