-- ==== Sys2Proof/Machine/State.lean ====
section
/-! DEFINITION. Everything the spec gives the machine as state (10_state.md, 46_pipeline.md R310 to R314), the terminal conditions
(60_exceptions.md) and the state after reset (R40). Plain data only. -/

namespace Sys2Proof.Machine

/-! ### The control-signal bundle (40_alu_and_control.md R120, R135) -/

/-- The thirteen ALU operation tags (R120). -/
inductive AluOp where
  | add | sub | and | or | sll | sra | jump | eq | neq | ge | le | movhi | nop
deriving DecidableEq, Repr

/-- `sel_a` (R135): the first read port, the `D` register (which has no port, 10_state.md R23), or nothing. -/
inductive SelectA where
  | rs1 | rd | unselected
deriving DecidableEq, Repr

/-- `sel_b` (R135): the second read port, the immediate, or nothing. -/
inductive SelectB where
  | rs2 | imm | unselected
deriving DecidableEq, Repr

/-- `mem_mode` (R135). -/
inductive MemMode where
  | noAccess | load | store
deriving DecidableEq, Repr

/-- `wb_in` (R135). -/
inductive WriteBackInput where
  | alu | mem
deriving DecidableEq, Repr

/-- `wb_out` (R135). -/
inductive WriteBackOutput where
  | noWrite | write
deriving DecidableEq, Repr

/-- The control-signal bundle, fixed for the instruction's lifetime in the pipeline (R135). `size` is a number of bytes, so
that the adapter's check of R53 has something to check. -/
structure ControlBundle where
  aluOp : AluOp
  selA : SelectA
  selB : SelectB
  memMode : MemMode
  wbIn : WriteBackInput
  wbOut : WriteBackOutput
  size : Nat
  sext : Bool
deriving DecidableEq, Repr

/-! ### Terminal conditions (60_exceptions.md R360 to R366) -/

/-- What `InvalidConfiguration` says was misused (R365). -/
inductive Misuse where
  /-- A request of a size outside 1, 2, 4, 8 (20_memory.md R53). -/
  | memorySize (n : Nat)
  /-- An operand selector with no input behind it was followed (40_alu_and_control.md R149, 10_state.md R23). -/
  | operandSelector
deriving DecidableEq, Repr

/-- The reasons of `Faulted(reason)` (R360): the clock stops, nothing is saved, no handler is entered (R369). After a fault only
the reason is specified (R367), and a fault outcome carries nothing else: safe (log entry 5). -/
inductive Fault where
  /-- Raised by the decode stage for the word `w` fetched from `pc` that resolves to no instruction (R361, R323). Safe. -/
  | illegalInstruction (pc w : Word)
  /-- Raised by the fetch stage when the bus refuses the four bytes at `addr` (R362, R316). Safe. -/
  | instructionFetchFailure (addr : Word)
  /-- Raised by the memory stage when the bus refuses the one request of a load or store at `addr` (R364, R331). Safe. -/
  | dataAccessFailure (addr : Word)
  /-- Raised at the point of misuse by the adapter or the operand mux; no program can reach it (R365, R53, R149). Safe. -/
  | invalidConfiguration (what : Misuse)
deriving DecidableEq, Repr

/-- Reasons to refuse an instruction. Every instruction of the table has its meaning, so none is raised. -/
inductive Refusal where
  /-- Raised by `exec` for an instruction that has no meaning yet; no arm raises it. Safe. -/
  | notModelled (mnemonic : String)
deriving DecidableEq, Repr

/-- `status` (10_state.md R33, 60_exceptions.md R360). -/
inductive Status where
  /-- The core takes clock cycles. -/
  | running
  /-- Fetch has read `END_WORD` and every earlier instruction has completed (R363). -/
  | ended
  /-- A terminal condition stopped the clock (R360). -/
  | faulted (reason : Fault)
deriving DecidableEq, Repr

/-! ### The latch registers (46_pipeline.md R310 to R314) -/

/-- A latch register: its `valid` bit and its fields (R310). With `valid = 0` it is a bubble, whose fields are don't-care. -/
structure Latch (α : Type) where
  valid : Bool
  fields : α
deriving DecidableEq, Repr

/-- The fields of IF/ID beside `valid` (R311). -/
structure IfId where
  pc : Word
  iw : Word
deriving DecidableEq, Repr

/-- The fields of ID/EX beside `valid` (R312). -/
structure IdEx where
  pc : Word
  instr : Mnemonic
  ctl : ControlBundle
  rs1Val : Word
  rs2Val : Word
  imm : Word
  rd : RegIdx
  link : Word
deriving DecidableEq, Repr

/-- The fields of EX/M beside `valid` (R313). -/
structure ExM where
  pc : Word
  instr : Mnemonic
  ctl : ControlBundle
  aluOut : Word
  rs2Val : Word
  rd : RegIdx
  link : Word
deriving DecidableEq, Repr

/-- The fields of M/WB beside `valid` (R314). -/
structure MWb where
  pc : Word
  instr : Mnemonic
  ctl : ControlBundle
  aluOut : Word
  memOut : Word
  rd : RegIdx
  link : Word
deriving DecidableEq, Repr

/-! ### The value-initialised latches (10_state.md R31, R40)

Every field is 0. The spec numbers no mnemonic and no selector: the zero of such a field is the member that does nothing
(DESIGN CHOICE, log entry 10). -/

/-- The bundle with every field 0. -/
def ControlBundle.zero : ControlBundle where
  aluOp := .nop
  selA := .unselected
  selB := .unselected
  memMode := .noAccess
  wbIn := .alu
  wbOut := .noWrite
  size := 0
  sext := false

/-- The fields of IF/ID, every one 0. -/
def IfId.zero : IfId where
  pc := 0#32
  iw := 0#32

/-- The fields of ID/EX, every one 0. -/
def IdEx.zero : IdEx where
  pc := 0#32
  instr := .nop
  ctl := .zero
  rs1Val := 0#32
  rs2Val := 0#32
  imm := 0#32
  rd := 0#5
  link := 0#32

/-- The fields of EX/M, every one 0. -/
def ExM.zero : ExM where
  pc := 0#32
  instr := .nop
  ctl := .zero
  aluOut := 0#32
  rs2Val := 0#32
  rd := 0#5
  link := 0#32

/-- The fields of M/WB, every one 0. -/
def MWb.zero : MWb where
  pc := 0#32
  instr := .nop
  ctl := .zero
  aluOut := 0#32
  memOut := 0#32
  rd := 0#5
  link := 0#32

/-- A latch with `valid = 0` over the given fields. -/
def Latch.bubble {α : Type} (fields : α) : Latch α := { valid := false, fields := fields }

/-! ### The state -/

/-- Memory: the bytes that differ from what an unlisted address reads as, by rising address (`Memory.wf`). -/
abbrev Memory := List Host.Cell

/-- The machine. Reset values: `State.resetWith`. -/
structure State where
  /-- The general registers r0 to r31 (10_state.md R20). Slot 0 is never read nor written: r0 is hard-wired (R21, R22). -/
  regs : Vector Word 32
  /-- `PC`, the fetch address (R26). -/
  pc : Word
  /-- `NPC`, the staged transfer target (R27). -/
  npc : Word
  /-- `DS`: 0 sequential, 1 one delay-slot instruction still to execute, 2 redirect at the next fetch (R28). -/
  ds : Fin 3
  /-- `FLAG` (R29). -/
  flag : Bool
  /-- IF/ID (R311). -/
  ifid : Latch IfId
  /-- ID/EX (R312). -/
  idex : Latch IdEx
  /-- EX/M (R313). -/
  exm : Latch ExM
  /-- M/WB (R314). -/
  mwb : Latch MWb
  /-- The stage that acts next in non-pipelined mode (R32). -/
  cursor : Fin 5
  /-- `status` (R33). -/
  status : Status
  /-- `fetch_done` (R33). -/
  fetchDone : Bool
  /-- `n_issued` (R34). -/
  nIssued : Nat
  /-- `n_retired` (R34). -/
  nRetired : Nat
  /-- `n_cycles` (R34). -/
  nCycles : Nat
  /-- The bytes behind the bus (20_memory.md R50, R52). -/
  mem : Memory
  /-- The parameter `PIPELINED` (00_scope.md R2, R8): no step changes it. -/
  pipelined : Bool
  /-- The parameter `END_WORD` (00_scope.md R8): no step changes it. -/
  endWord : Word
  /-- The parameter `BUS` (00_scope.md R8): no step changes it. -/
  bus : Config.Bus
deriving DecidableEq, Repr

/-- The state after reset with the chosen `PIPELINED`, `END_WORD` and `BUS` over the memory behind the bus, which reset does not touch
(10_state.md R40, 70_reset_and_hazards.md R380, R381). -/
def State.resetWith (pipelined : Bool) (endWord : Word) (bus : Config.Bus) (mem : Memory) : State where
  regs := Vector.replicate 32 0#32
  pc := 0#32
  npc := 0#32
  ds := 0
  flag := false
  ifid := Latch.bubble IfId.zero
  idex := Latch.bubble IdEx.zero
  exm := Latch.bubble ExM.zero
  mwb := Latch.bubble MWb.zero
  cursor := 0
  status := .running
  fetchDone := false
  nIssued := 0
  nRetired := 0
  nCycles := 0
  mem := mem
  pipelined := pipelined
  endWord := endWord
  bus := bus

/-- The machine right after reset, in non-pipelined mode (DESIGN CHOICE, log entry 1) with the spec's default `END_WORD` and
`BUS` (00_scope.md R8), before the host has loaded anything. -/
def State.reset : State := State.resetWith false Config.endWordDefault Config.busDefault []

end Sys2Proof.Machine
end

