-- ==== Sys2Proof/Machine/Alu.lean ====
section
/-! DEFINITION. The ALU (40_alu_and_control.md R120 to R134): a pure function of two operands and a tag. -/

namespace Sys2Proof.Machine

/-- `ALU(SLL, a, b)`: zeros shifted in, 0 for `b >= 32` (R125). The amount is not masked here (90_conflicts.md C15). -/
def shiftLeftLogical (a b : Word) : Word :=
  if b.toNat < 32 then a <<< b.toNat else 0#32

/-- `ALU(SRA, a, b)`: the sign shifted in; for `b >= 32` as for `b = 31` (R126). -/
def shiftRightArithmetic (a b : Word) : Word :=
  if b.toNat < 32 then a.sshiftRight b.toNat else a.sshiftRight 31

/-- A comparison's result as the ALU gives it: 1 or 0 (R128). -/
def bitResult (c : Bool) : Word := if c then 1#32 else 0#32

/-- `ALU(op, a, b)` (R121 to R133). The tags are the thirteen, so the unrecognised tag of R134 does not exist. -/
def aluEval (op : AluOp) (a b : Word) : Word :=
  match op with
  | .add => a + b
  | .sub => a - b
  | .and => a &&& b
  | .or => a ||| b
  | .sll => shiftLeftLogical a b
  | .sra => shiftRightArithmetic a b
  | .jump => a + (b <<< 2)
  | .eq => bitResult (a == b)
  | .neq => bitResult (a != b)
  | .ge => bitResult (b.sle a)
  | .le => bitResult (a.sle b)
  | .movhi => b
  | .nop => 0#32

end Sys2Proof.Machine
end

