-- ==== Sys2Proof/Machine/Flags.lean ====
section
/-! DEFINITION. `FLAG`, the one condition bit (10_state.md R29). The core has no carry, overflow, zero or sign flag
(40_alu_and_control.md R120), so this is every flag computation the spec gives. -/

namespace Sys2Proof.Machine

/-- The tags of the four comparisons (R128 to R131). -/
def AluOp.isCompare (op : AluOp) : Bool :=
  match op with
  | .eq | .neq | .ge | .le => true
  | .add | .sub | .and | .or | .sll | .sra | .jump | .movhi | .nop => false

/-- The single bit of `ALU(tag, a, b)` that a compare writes to `FLAG` (42_compare.md R210). -/
def compareFlag (tag : AluOp) (a b : Word) : Bool := aluEval tag a b != 0#32

/-- `FLAG <- f` (46_pipeline.md R322). -/
def State.setFlag (s : State) (f : Bool) : State := { s with flag := f }

end Sys2Proof.Machine
end

