-- ==== Sys2Proof/Machine/Ops.lean ====
section
/-! DEFINITION. The named operations: registers, memory and its two adapters, the delay-slot protocol, a taken transfer, the
terminal conditions, and the completion of an instruction. -/

namespace Sys2Proof.Machine

/-! ### General registers (10_state.md R21, R22) -/

/-- `x[i]`: r0 reads 0 always (R21). -/
def State.readReg (s : State) (i : RegIdx) : Word :=
  if i = 0#5 then 0#32 else s.regs[i.toNat]'i.isLt

/-- `x[i] <- v`: a write to r0 has no effect (R22). -/
def State.writeReg (s : State) (i : RegIdx) (v : Word) : State :=
  if i = 0#5 then s else { s with regs := s.regs.set i.toNat v i.isLt }

/-! ### Memory bytes -/

/-- What an address that is not listed reads as: zero, as the default `BUS` says (20_memory.md R52; log entry 4). -/
def unlistedByte : Byte := 0#8

/-- The byte at address `a`. -/
def Memory.read (m : Memory) (a : Nat) : Byte :=
  match m with
  | [] => unlistedByte
  | (k, v) :: rest => if k = a then v else Memory.read rest a

/-- Memory with the byte `v` at address `a`, in canonical form if `m` is: the byte an unlisted address reads as is not listed. -/
def Memory.write (m : Memory) (a : Nat) (v : Byte) : Memory :=
  match m with
  | [] => if v = unlistedByte then [] else [(a, v)]
  | (k, u) :: rest =>
    if a < k then
      if v = unlistedByte then (k, u) :: rest else (a, v) :: (k, u) :: rest
    else if a = k then
      if v = unlistedByte then rest else (a, v) :: rest
    else (k, u) :: Memory.write rest a v

/-- The addresses of `m` rise strictly from `low` and stay in the address space, and no listed byte is the unlisted one. -/
def Memory.wfFrom (low : Nat) (m : Memory) : Bool :=
  match m with
  | [] => true
  | (k, v) :: rest =>
    decide (low ≤ k) && decide (k < Config.addressSpace) && v != unlistedByte && Memory.wfFrom (k + 1) rest

/-- The canonical form of memory. -/
def Memory.wf (m : Memory) : Bool := Memory.wfFrom 0 m

/-- The `n` bytes at `a .. a+n-1`, the lowest address first. -/
def Memory.readBytes (m : Memory) (a : Nat) (n : Nat) : List Byte :=
  match n with
  | 0 => []
  | n + 1 => Memory.read m a :: Memory.readBytes m (a + 1) n

/-- The bytes of the list stored from address `a` upward. -/
def Memory.writeBytes (m : Memory) (a : Nat) (bytes : List Byte) : Memory :=
  match bytes with
  | [] => m
  | b :: rest => Memory.writeBytes (Memory.write m a b) (a + 1) rest

/-! ### Byte order (20_memory.md R54 to R57) -/

/-- `b0 ++ b1 ++ ..`, `b0` most significant, in 64 bits (R54). -/
def ofBigEndian (acc : BitVec 64) (bytes : List Byte) : BitVec 64 :=
  match bytes with
  | [] => acc
  | b :: rest => ofBigEndian (acc <<< 8 ||| b.setWidth 64) rest

/-- The low `8n` bits of `v` as `n` bytes, the most significant first (R55). -/
def toBigEndian (n : Nat) (v : BitVec 64) : List Byte :=
  match n with
  | 0 => []
  | n + 1 => v.extractLsb' (8 * n) 8 :: toBigEndian n v

/-! ### The bus and its adapters (20_memory.md R51 to R55) -/

/-- The request for `n` bytes at `a` touches no address of the range. -/
def missesRange (r : Config.AddressRange) (a n : Nat) : Bool :=
  decide (a + n ≤ r.first) || decide (r.limit ≤ a)

/-- RAM performs a read of `n` bytes at `a` (R52): inside the space, aligned where it asks for it, no absent address. -/
def ramAcceptsRead (r : Config.Ram) (a n : Nat) : Bool :=
  decide (a + n ≤ Config.addressSpace) && (!r.naturalAlignment || decide (a % n = 0)) && r.absent.all (missesRange · a n)

/-- RAM performs a write of `n` bytes at `a` (R52): as a read, and no read-only address. -/
def ramAcceptsWrite (r : Config.Ram) (a n : Nat) : Bool :=
  ramAcceptsRead r a n && r.readOnly.all (missesRange · a n)

/-- Memory with the listed bytes at their addresses, the later entries over the earlier ones. -/
def Memory.writeCells (m : Memory) (cells : List (Word × Byte)) : Memory :=
  match cells with
  | [] => m
  | (a, v) :: rest => Memory.writeCells (Memory.write m a.toNat v) rest

/-- `BUS.read` (R52): `some` is ok, `none` is fail. A read has no side effect: it answers bytes and no memory (R52, R63). -/
def busRead (b : Config.Bus) (m : Memory) (a n : Nat) : Option (List Byte) :=
  match b with
  | .ram r => if ramAcceptsRead r a n then some (Memory.readBytes m a n) else none
  | .external id => (Config.externalRead id m a n).map (·.toList)

/-- `BUS.write` (R52): `some` is ok, `none` is fail. -/
def busWrite (b : Config.Bus) (m : Memory) (a : Nat) (bytes : List Byte) : Option Memory :=
  match b with
  | .ram r => if ramAcceptsWrite r a bytes.length then some (Memory.writeBytes m a bytes) else none
  | .external id => (Config.externalWrite id m a bytes).map (Memory.writeCells m)

/-- The sizes the data adapter accepts (R53). -/
def validSize (n : Nat) : Bool := n == 1 || n == 2 || n == 4 || n == 8

/-- `MemRead(addr, n)` through the data adapter (R53, R54): the unsigned value, in 64 bits. -/
def State.memRead (s : State) (addr : Word) (n : Nat) : Except Fault (BitVec 64) :=
  if validSize n then
    match busRead s.bus s.mem addr.toNat n with
    | some bytes => .ok (ofBigEndian 0#64 bytes)
    | none => .error (.dataAccessFailure addr)
  else .error (.invalidConfiguration (.memorySize n))

/-- `MemWrite(addr, n, v)` through the data adapter (R53, R55): the new memory. -/
def State.memWrite (s : State) (addr : Word) (n : Nat) (v : BitVec 64) : Except Fault Memory :=
  if validSize n then
    match busWrite s.bus s.mem addr.toNat (toBigEndian n v) with
    | some m => .ok m
    | none => .error (.dataAccessFailure addr)
  else .error (.invalidConfiguration (.memorySize n))

/-- The instruction adapter: the word at `PC`, four bytes, big-endian (R51, R57, 46_pipeline.md R316). -/
def State.fetchWord (s : State) : Except Fault Word :=
  match busRead s.bus s.mem s.pc.toNat 4 with
  | some [b0, b1, b2, b3] => .ok (wordOfBytes b0 b1 b2 b3)
  | _ => .error (.instructionFetchFailure s.pc)

/-- A loaded value of `n` bytes as a register value: sign-extended from its `8n` bits if `sx`, else zero-extended, then the low 32
bits (43_load_store.md R241, 46_pipeline.md R331). -/
def extendLoaded (n : Nat) (sx : Bool) (v : BitVec 64) : Word :=
  if sx then
    if n = 1 then sext (v.setWidth 8)
    else if n = 2 then sext (v.setWidth 16)
    else v.setWidth 32
  else v.setWidth 32

/-! ### Latch registers (46_pipeline.md R310) -/

/-- What a stage reads from the latch on its left: the fields, or a bubble. -/
def Latch.out {α : Type} (l : Latch α) : Option α := if l.valid then some l.fields else none

/-- What a stage commits to the latch on its right: its output with `valid = 1`, or a bubble. The fields of a bubble are don't-care
(R310): they are value-initialised again (DESIGN CHOICE, log entry 10). -/
def Latch.commit {α : Type} (zero : α) (out : Option α) : Latch α :=
  match out with
  | some fields => { valid := true, fields := fields }
  | none => Latch.bubble zero

/-! ### The delay-slot protocol and transfers -/

/-- The first step of fetch: redirect `PC` at `DS = 2`, count the delay slot at `DS = 1` (46_pipeline.md R315). -/
def State.applyDelaySlot (s : State) : State :=
  if s.ds = 2 then { s with pc := s.npc, ds := 0 }
  else if s.ds = 1 then { s with ds := 2 }
  else s

/-- The address the next fetch reads: `NPC` at `DS = 2`, else `PC` (46_pipeline.md R315, R316). -/
def State.fetchAddress (s : State) : Word := if s.ds = 2 then s.npc else s.pc

/-- `transfer(t)`: `NPC <- t; DS <- (if PIPELINED then 2 else 1)` (44_control_transfer.md R270). -/
def State.transfer (s : State) (t : Word) : State :=
  { s with npc := t, ds := if s.pipelined then 2 else 1 }

/-! ### Terminal conditions

Taking a condition is this one operation: the clock stops with the reason, nothing is saved, control goes nowhere
(60_exceptions.md R360, R369). There is no return from it (R370). -/

/-- `raise <Condition>(info)` (00_scope.md R11, R360). -/
def raise (r : Fault) : Host.Outcome State Fault Refusal := .fault r

/-- `status <- Faulted(reason)`: what the host finds in `status` afterwards (R360, 70_reset_and_hazards.md R385). The other fields are
unspecified after a fault (R367); they are left as they were and no statement reads them (log entry 5). -/
def State.recordFault (s : State) (r : Fault) : State := { s with status := .faulted r }

/-- The state the host finds after an outcome of a step from `s`. -/
def State.afterOutcome (s : State) (o : Host.Outcome State Fault Refusal) : State :=
  match o with
  | .next t => t
  | .fault r => s.recordFault r
  | .refused _ => s

/-! ### Completion at the instruction level (46_pipeline.md R345)

A meaning runs in the state fetch leaves: `pc` is the address of the instruction itself, and its effect is followed by this. -/

/-- `PC <- PC + 4` and one more issued and retired instruction (R345), in five clock cycles (R346, R392; log entry 9). -/
def State.retire (s : State) : State :=
  { s with
    pc := s.pc + 4#32
    nIssued := s.nIssued + 1
    nRetired := s.nRetired + 1
    nCycles := s.nCycles + 5 }

/-- The instruction has had its effect and completes. -/
def complete (s : State) : Host.Outcome State Fault Refusal := .next s.retire

end Sys2Proof.Machine
end

