-- ==== Sys2Proof/Machine/Operands.lean ====
section
/-! DEFINITION. The operand forms: effective address, displacement, shift amount, and the loads and stores every memory
instruction is made of. -/

namespace Sys2Proof.Machine

/-- The one addressing mode: `ea = ALU(ADD, x[A], sext_16(I))` (43_load_store.md R240). -/
def State.effectiveAddress (s : State) (a : RegIdx) (i : BitVec 16) : Word :=
  aluEval .add (s.readReg a) (sext i)

/-- `(imm << 2) mod 2^32`, the displacement of a pc-relative transfer (40_alu_and_control.md R147). -/
def jumpDisplacement (n : BitVec 26) : Word := sext n <<< 2

/-- `pc + disp` (44_control_transfer.md R270); `pc` is the transfer's own address. -/
def State.transferTarget (s : State) (disp : Word) : Word := s.pc + disp

/-- The execute stage's mask of a shift amount: its low four bits (46_pipeline.md R326). -/
def shiftAmount (v : Word) : Word := v &&& 0xF#32

/-- The effect common to the register-writing instructions without a memory access: `x[d] <- v` (41_arithmetic_logic.md R170). -/
def State.writeResult (s : State) (d : RegIdx) (v : Word) : Host.Outcome State Fault Refusal := complete (s.writeReg d v)

/-- A stub in the write allow-list writes the execute stage's default result: `x[d] <- 0` (40_alu_and_control.md R137, R141, R146). -/
def State.writeZero (s : State) (d : RegIdx) : Host.Outcome State Fault Refusal := s.writeResult d 0#32

/-- The compare template, register form: `FLAG <- ALU(tag, x[a], x[b])` (42_compare.md R210). -/
def State.compareRegisters (s : State) (tag : AluOp) (a b : RegIdx) : Host.Outcome State Fault Refusal :=
  complete (s.setFlag (compareFlag tag (s.readReg a) (s.readReg b)))

/-- The compare template, immediate form: `FLAG <- ALU(tag, x[a], sext_16(I))` (42_compare.md R210). -/
def State.compareImmediate (s : State) (tag : AluOp) (a : RegIdx) (i : BitVec 16) : Host.Outcome State Fault Refusal :=
  complete (s.setFlag (compareFlag tag (s.readReg a) (sext i)))

/-- The load template (43_load_store.md R241): one read of `n` bytes at the effective address, extended, written to `x[d]`. -/
def State.load (s : State) (d a : RegIdx) (i : BitVec 16) (n : Nat) (sx : Bool) : Host.Outcome State Fault Refusal :=
  match s.memRead (s.effectiveAddress a i) n with
  | .ok v => complete (s.writeReg d (extendLoaded n sx v))
  | .error r => raise r

/-- The store template (43_load_store.md R251): one write of the low `8n` bits of `x[b]`, zero-extended to 64 bits, at the
effective address; no register is written. -/
def State.store (s : State) (i : BitVec 16) (a b : RegIdx) (n : Nat) : Host.Outcome State Fault Refusal :=
  match s.memWrite (s.effectiveAddress a i) n ((s.readReg b).setWidth 64) with
  | .ok m => complete { s with mem := m }
  | .error r => raise r

end Sys2Proof.Machine
end

