-- ==== Sys2Proof/Machine/Arithmetic.lean ====
section
/-! DEFINITION. Meanings of the arithmetic, logic, shift and move instructions (41_arithmetic_logic.md R170 to R202). -/

namespace Sys2Proof.Machine

/-- `l.addi` (R171): `x[D] <- ALU(ADD, x[A], sext_16(I))`. -/
def execAddi (d : RegIdx) (a : RegIdx) (i : BitVec 16) (s : State) : Host.Outcome State Fault Refusal :=
  s.writeResult d (aluEval .add (s.readReg a) (sext i))

/-- `l.ori` (R172): `x[D] <- ALU(OR, x[A], sext_16(K))`; the immediate is sign-extended (U6). -/
def execOri (d : RegIdx) (a : RegIdx) (i : BitVec 16) (s : State) : Host.Outcome State Fault Refusal :=
  s.writeResult d (aluEval .or (s.readReg a) (sext i))

/-- `l.slli` (R173): `x[D] <- ALU(SLL, x[A], imm & 0xF)`. -/
def execSlli (d : RegIdx) (a : RegIdx) (l : BitVec 6) (s : State) : Host.Outcome State Fault Refusal :=
  s.writeResult d (aluEval .sll (s.readReg a) (shiftAmount (sext l)))

/-- `l.srli` (R174): a stub, `x[D] <- 0`; `x[A]` is not read. -/
def execSrli (d : RegIdx) (_a : RegIdx) (_l : BitVec 6) (s : State) : Host.Outcome State Fault Refusal :=
  s.writeZero d

/-- `l.srai` (R175): `x[D] <- ALU(SRA, x[A], imm & 0xF)`. -/
def execSrai (d : RegIdx) (a : RegIdx) (l : BitVec 6) (s : State) : Host.Outcome State Fault Refusal :=
  s.writeResult d (aluEval .sra (s.readReg a) (shiftAmount (sext l)))

/-- `l.rori` (R176): a stub, `x[D] <- 0`. -/
def execRori (d : RegIdx) (_a : RegIdx) (_l : BitVec 6) (s : State) : Host.Outcome State Fault Refusal :=
  s.writeZero d

/-- `l.movhi` (R179): `x[D] <- ALU(SLL, zext_16(K), 16)` (C4). -/
def execMovhi (d : RegIdx) (k : BitVec 16) (s : State) : Host.Outcome State Fault Refusal :=
  s.writeResult d (aluEval .sll (zext k) 16#32)

/-- `l.macrc` (R180): a stub, `x[D] <- 0`; there is no accumulator (10_state.md R36). -/
def execMacrc (d : RegIdx) (s : State) : Host.Outcome State Fault Refusal :=
  s.writeZero d

/-- `l.add` (R181): `x[D] <- ALU(ADD, x[A], x[B])`. -/
def execAdd (d : RegIdx) (a : RegIdx) (b : RegIdx) (s : State) : Host.Outcome State Fault Refusal :=
  s.writeResult d (aluEval .add (s.readReg a) (s.readReg b))

/-- `l.sub` (R182): `x[D] <- ALU(SUB, x[A], x[B])`. -/
def execSub (d : RegIdx) (a : RegIdx) (b : RegIdx) (s : State) : Host.Outcome State Fault Refusal :=
  s.writeResult d (aluEval .sub (s.readReg a) (s.readReg b))

/-- `l.or` (R183): `x[D] <- ALU(OR, x[A], x[B])`. -/
def execOr (d : RegIdx) (a : RegIdx) (b : RegIdx) (s : State) : Host.Outcome State Fault Refusal :=
  s.writeResult d (aluEval .or (s.readReg a) (s.readReg b))

/-- `l.sll` (R184): `x[D] <- ALU(SLL, x[A], x[B] & 0xF)`. -/
def execSll (d : RegIdx) (a : RegIdx) (b : RegIdx) (s : State) : Host.Outcome State Fault Refusal :=
  s.writeResult d (aluEval .sll (s.readReg a) (shiftAmount (s.readReg b)))

/-- `l.sra` (R185): `x[D] <- ALU(SRA, x[A], x[B] & 0xF)`. -/
def execSra (d : RegIdx) (a : RegIdx) (b : RegIdx) (s : State) : Host.Outcome State Fault Refusal :=
  s.writeResult d (aluEval .sra (s.readReg a) (shiftAmount (s.readReg b)))

/-- `l.and` (R186): a stub (the ALU's AND is not selected, C8), `x[D] <- 0`. -/
def execAnd (d : RegIdx) (_a : RegIdx) (_b : RegIdx) (s : State) : Host.Outcome State Fault Refusal :=
  s.writeZero d

/-- `l.xor` (R187): a stub, `x[D] <- 0`. -/
def execXor (d : RegIdx) (_a : RegIdx) (_b : RegIdx) (s : State) : Host.Outcome State Fault Refusal :=
  s.writeZero d

/-- `l.cmov` (R188): a stub, `x[D] <- 0`; `FLAG` is not read. -/
def execCmov (d : RegIdx) (_a : RegIdx) (_b : RegIdx) (s : State) : Host.Outcome State Fault Refusal :=
  s.writeZero d

/-- `l.ff1` (R189): a stub, `x[D] <- 0`. -/
def execFf1 (d : RegIdx) (_a : RegIdx) (s : State) : Host.Outcome State Fault Refusal :=
  s.writeZero d

/-- `l.srl` (R190): a stub, `x[D] <- 0`. -/
def execSrl (d : RegIdx) (_a : RegIdx) (_b : RegIdx) (s : State) : Host.Outcome State Fault Refusal :=
  s.writeZero d

/-- `l.ror` (R191): a stub, `x[D] <- 0`. -/
def execRor (d : RegIdx) (_a : RegIdx) (_b : RegIdx) (s : State) : Host.Outcome State Fault Refusal :=
  s.writeZero d

/-- `l.exths` (R192): a stub, `x[D] <- 0`. -/
def execExths (d : RegIdx) (_a : RegIdx) (s : State) : Host.Outcome State Fault Refusal :=
  s.writeZero d

/-- `l.extbs` (R193): a stub, `x[D] <- 0`. -/
def execExtbs (d : RegIdx) (_a : RegIdx) (s : State) : Host.Outcome State Fault Refusal :=
  s.writeZero d

/-- `l.exthz` (R194): a stub, `x[D] <- 0`. -/
def execExthz (d : RegIdx) (_a : RegIdx) (s : State) : Host.Outcome State Fault Refusal :=
  s.writeZero d

/-- `l.extbz` (R195): a stub, `x[D] <- 0`. -/
def execExtbz (d : RegIdx) (_a : RegIdx) (s : State) : Host.Outcome State Fault Refusal :=
  s.writeZero d

/-- `l.extws` (R196): a stub, `x[D] <- 0`. -/
def execExtws (d : RegIdx) (_a : RegIdx) (s : State) : Host.Outcome State Fault Refusal :=
  s.writeZero d

/-- `l.extwz` (R197): a stub, `x[D] <- 0`. -/
def execExtwz (d : RegIdx) (_a : RegIdx) (s : State) : Host.Outcome State Fault Refusal :=
  s.writeZero d

/-- `l.mul` (R198): a stub, `x[D] <- 0`. -/
def execMul (d : RegIdx) (_a : RegIdx) (_b : RegIdx) (s : State) : Host.Outcome State Fault Refusal :=
  s.writeZero d

/-- `l.div` (R199): a stub, `x[D] <- 0` for every `x[B]`, 0 included. -/
def execDiv (d : RegIdx) (_a : RegIdx) (_b : RegIdx) (s : State) : Host.Outcome State Fault Refusal :=
  s.writeZero d

/-- `l.divu` (R200): a stub, `x[D] <- 0`. -/
def execDivu (d : RegIdx) (_a : RegIdx) (_b : RegIdx) (s : State) : Host.Outcome State Fault Refusal :=
  s.writeZero d

/-- `l.mulu` (R201): a stub, `x[D] <- 0`. -/
def execMulu (d : RegIdx) (_a : RegIdx) (_b : RegIdx) (s : State) : Host.Outcome State Fault Refusal :=
  s.writeZero d

end Sys2Proof.Machine
end

