-- ==== Sys2Proof/Machine/Compare.lean ====
section
/-! DEFINITION. Meanings of the set-flag compares (42_compare.md R210 to R232). -/

namespace Sys2Proof.Machine

/-- `l.sfeq` (R211): `FLAG <- ALU(EQ, x[A], x[B])`. -/
def execSfeq (a : RegIdx) (b : RegIdx) (s : State) : Host.Outcome State Fault Refusal :=
  s.compareRegisters .eq a b

/-- `l.sfne` (R212): `FLAG <- ALU(NEQ, x[A], x[B])`. -/
def execSfne (a : RegIdx) (b : RegIdx) (s : State) : Host.Outcome State Fault Refusal :=
  s.compareRegisters .neq a b

/-- `l.sfges` (R213): `FLAG <- ALU(GE, x[A], x[B])`. -/
def execSfges (a : RegIdx) (b : RegIdx) (s : State) : Host.Outcome State Fault Refusal :=
  s.compareRegisters .ge a b

/-- `l.sfles` (R214): `FLAG <- ALU(LE, x[A], x[B])`. -/
def execSfles (a : RegIdx) (b : RegIdx) (s : State) : Host.Outcome State Fault Refusal :=
  s.compareRegisters .le a b

/-- `l.sfeqi` (R215): `FLAG <- ALU(EQ, x[A], sext_16(I))`. -/
def execSfeqi (a : RegIdx) (i : BitVec 16) (s : State) : Host.Outcome State Fault Refusal :=
  s.compareImmediate .eq a i

/-- `l.sfnei` (R216): `FLAG <- ALU(NEQ, x[A], sext_16(I))`. -/
def execSfnei (a : RegIdx) (i : BitVec 16) (s : State) : Host.Outcome State Fault Refusal :=
  s.compareImmediate .neq a i

/-- `l.sfgesi` (R217): `FLAG <- ALU(GE, x[A], sext_16(I))`. -/
def execSfgesi (a : RegIdx) (i : BitVec 16) (s : State) : Host.Outcome State Fault Refusal :=
  s.compareImmediate .ge a i

/-- `l.sflesi` (R218): `FLAG <- ALU(LE, x[A], sext_16(I))`. -/
def execSflesi (a : RegIdx) (i : BitVec 16) (s : State) : Host.Outcome State Fault Refusal :=
  s.compareImmediate .le a i

/-- `l.sfgtu` (R220): a stub, no state change: `FLAG` keeps its value (R219). -/
def execSfgtu (_a : RegIdx) (_b : RegIdx) (s : State) : Host.Outcome State Fault Refusal :=
  complete s

/-- `l.sfgeu` (R221): a stub, no state change: `FLAG` keeps its value (R219). -/
def execSfgeu (_a : RegIdx) (_b : RegIdx) (s : State) : Host.Outcome State Fault Refusal :=
  complete s

/-- `l.sfltu` (R222): a stub, no state change: `FLAG` keeps its value (R219). -/
def execSfltu (_a : RegIdx) (_b : RegIdx) (s : State) : Host.Outcome State Fault Refusal :=
  complete s

/-- `l.sfleu` (R223): a stub, no state change: `FLAG` keeps its value (R219). -/
def execSfleu (_a : RegIdx) (_b : RegIdx) (s : State) : Host.Outcome State Fault Refusal :=
  complete s

/-- `l.sfgts` (R224): a stub, no state change: `FLAG` keeps its value (R219). -/
def execSfgts (_a : RegIdx) (_b : RegIdx) (s : State) : Host.Outcome State Fault Refusal :=
  complete s

/-- `l.sflts` (R225): a stub, no state change: `FLAG` keeps its value (R219). -/
def execSflts (_a : RegIdx) (_b : RegIdx) (s : State) : Host.Outcome State Fault Refusal :=
  complete s

/-- `l.sfgtui` (R226): a stub, no state change: `FLAG` keeps its value (R219). -/
def execSfgtui (_a : RegIdx) (_i : BitVec 16) (s : State) : Host.Outcome State Fault Refusal :=
  complete s

/-- `l.sfgeui` (R227): a stub, no state change: `FLAG` keeps its value (R219). -/
def execSfgeui (_a : RegIdx) (_i : BitVec 16) (s : State) : Host.Outcome State Fault Refusal :=
  complete s

/-- `l.sfltui` (R228): a stub, no state change: `FLAG` keeps its value (R219). -/
def execSfltui (_a : RegIdx) (_i : BitVec 16) (s : State) : Host.Outcome State Fault Refusal :=
  complete s

/-- `l.sfleui` (R229): a stub, no state change: `FLAG` keeps its value (R219). -/
def execSfleui (_a : RegIdx) (_i : BitVec 16) (s : State) : Host.Outcome State Fault Refusal :=
  complete s

/-- `l.sfgtsi` (R230): a stub, no state change: `FLAG` keeps its value (R219). -/
def execSfgtsi (_a : RegIdx) (_i : BitVec 16) (s : State) : Host.Outcome State Fault Refusal :=
  complete s

/-- `l.sfltsi` (R231): a stub, no state change: `FLAG` keeps its value (R219). -/
def execSfltsi (_a : RegIdx) (_i : BitVec 16) (s : State) : Host.Outcome State Fault Refusal :=
  complete s

end Sys2Proof.Machine
end

