-- ==== Sys2Proof/Machine/ControlTransfer.lean ====
section
/-! DEFINITION. Meanings of the jumps and branches (44_control_transfer.md R270 to R281). Each leaves the delay slot to the
fetch of the next steps (`State.applyDelaySlot`). -/

namespace Sys2Proof.Machine

/-- `l.j` (R271): always taken, `transfer(pc + (imm << 2))`. -/
def execJ (n : BitVec 26) (s : State) : Host.Outcome State Fault Refusal :=
  complete (s.transfer (s.transferTarget (jumpDisplacement n)))

/-- `l.jal` (R272): `transfer(pc + (imm << 2)); x[9] <- pc + 8`. -/
def execJal (n : BitVec 26) (s : State) : Host.Outcome State Fault Refusal :=
  complete ((s.transfer (s.transferTarget (jumpDisplacement n))).writeReg Config.linkRegister (s.pc + 8#32))

/-- `l.bf` (R273): taken when `FLAG = 1`. -/
def execBf (n : BitVec 26) (s : State) : Host.Outcome State Fault Refusal :=
  complete (if s.flag then s.transfer (s.transferTarget (jumpDisplacement n)) else s)

/-- `l.bnf` (R274): taken when `FLAG = 0`. -/
def execBnf (n : BitVec 26) (s : State) : Host.Outcome State Fault Refusal :=
  complete (if s.flag then s else s.transfer (s.transferTarget (jumpDisplacement n)))

/-- `l.jr` (R275): `transfer(pc + x[9])`, whatever B says (C14). -/
def execJr (_b : RegIdx) (s : State) : Host.Outcome State Fault Refusal :=
  complete (s.transfer (s.transferTarget (s.readReg Config.linkRegister)))

/-- `l.jalr` (R276): `transfer(pc + x[B])`; no link. -/
def execJalr (b : RegIdx) (s : State) : Host.Outcome State Fault Refusal :=
  complete (s.transfer (s.transferTarget (s.readReg b)))

end Sys2Proof.Machine
end

