-- ==== Sys2Proof/Machine/LoadStore.lean ====
section
/-! DEFINITION. Meanings of the loads and stores (43_load_store.md R240 to R259). -/

namespace Sys2Proof.Machine

/-- `l.lwa` (R242): a plain word load, no reservation (20_memory.md R69). -/
def execLwa (d : RegIdx) (a : RegIdx) (i : BitVec 16) (s : State) : Host.Outcome State Fault Refusal :=
  s.load d a i 4 false

/-- `l.lwz` (R243): `x[D] <- MemRead(ea, 4)`. -/
def execLwz (d : RegIdx) (a : RegIdx) (i : BitVec 16) (s : State) : Host.Outcome State Fault Refusal :=
  s.load d a i 4 false

/-- `l.lws` (R244): `x[D] <- sext_32(MemRead(ea, 4))`. -/
def execLws (d : RegIdx) (a : RegIdx) (i : BitVec 16) (s : State) : Host.Outcome State Fault Refusal :=
  s.load d a i 4 true

/-- `l.lbz` (R245): `x[D] <- zext_32(MemRead(ea, 1))`. -/
def execLbz (d : RegIdx) (a : RegIdx) (i : BitVec 16) (s : State) : Host.Outcome State Fault Refusal :=
  s.load d a i 1 false

/-- `l.lbs` (R246): `x[D] <- sext_8(MemRead(ea, 1))`. -/
def execLbs (d : RegIdx) (a : RegIdx) (i : BitVec 16) (s : State) : Host.Outcome State Fault Refusal :=
  s.load d a i 1 true

/-- `l.lhz` (R247): one byte, zero-extended (C3). -/
def execLhz (d : RegIdx) (a : RegIdx) (i : BitVec 16) (s : State) : Host.Outcome State Fault Refusal :=
  s.load d a i 1 false

/-- `l.lhs` (R248): one byte, zero-extended (C3). -/
def execLhs (d : RegIdx) (a : RegIdx) (i : BitVec 16) (s : State) : Host.Outcome State Fault Refusal :=
  s.load d a i 1 false

/-- `l.lf` (R249): one byte, zero-extended, to a general register. -/
def execLf (d : RegIdx) (a : RegIdx) (i : BitVec 16) (s : State) : Host.Outcome State Fault Refusal :=
  s.load d a i 1 false

/-- `l.ld` (R256): `x[D] <- MemRead(ea, 8)[31:0]`. -/
def execLd (d : RegIdx) (a : RegIdx) (i : BitVec 16) (s : State) : Host.Outcome State Fault Refusal :=
  s.load d a i 8 false

/-- `l.swa` (R250): a plain word store, always performed, `FLAG` not written (20_memory.md R69). -/
def execSwa (i : BitVec 16) (a : RegIdx) (b : RegIdx) (s : State) : Host.Outcome State Fault Refusal :=
  s.store i a b 4

/-- `l.sw` (R252): `MemWrite(ea, 4, x[B])`. -/
def execSw (i : BitVec 16) (a : RegIdx) (b : RegIdx) (s : State) : Host.Outcome State Fault Refusal :=
  s.store i a b 4

/-- `l.sb` (R253): `MemWrite(ea, 1, x[B][7:0])`. -/
def execSb (i : BitVec 16) (a : RegIdx) (b : RegIdx) (s : State) : Host.Outcome State Fault Refusal :=
  s.store i a b 1

/-- `l.sh` (R254): one byte, `MemWrite(ea, 1, x[B][7:0])` (C3). -/
def execSh (i : BitVec 16) (a : RegIdx) (b : RegIdx) (s : State) : Host.Outcome State Fault Refusal :=
  s.store i a b 1

/-- `l.sd` (R255): `MemWrite(ea, 8, zext_64(x[B]))`. -/
def execSd (i : BitVec 16) (a : RegIdx) (b : RegIdx) (s : State) : Host.Outcome State Fault Refusal :=
  s.store i a b 8

end Sys2Proof.Machine
end

