-- ==== Sys2Proof/Machine/SystemMisc.lean ====
section
/-! DEFINITION. Meanings of the no-op, the synchronisation and system words and the end-of-test word (45_system_misc.md R290 to R297). -/

namespace Sys2Proof.Machine

/-- `l.nop` (R290): no state change; `K` is ignored. -/
def execNop (_k : BitVec 16) (s : State) : Host.Outcome State Fault Refusal :=
  complete s

/-- `l.msync` (R291): no state change; there is nothing to order. -/
def execMsync (s : State) : Host.Outcome State Fault Refusal :=
  complete s

/-- `l.psync` (R292): no state change; the pipeline is not flushed. -/
def execPsync (s : State) : Host.Outcome State Fault Refusal :=
  complete s

/-- `l.csync` (R293): no state change. -/
def execCsync (s : State) : Host.Outcome State Fault Refusal :=
  complete s

/-- `l.sys` (R294): no state change; no trap is taken, `PC` continues sequentially. -/
def execSys (_k : BitVec 16) (s : State) : Host.Outcome State Fault Refusal :=
  complete s

/-- `l.trap` (R295): no state change. -/
def execTrap (_k : BitVec 16) (s : State) : Host.Outcome State Fault Refusal :=
  complete s

/-- `l.adrp` (R296): no state change; `x[D]` is not written. -/
def execAdrp (_d : RegIdx) (_n : BitVec 21) (s : State) : Host.Outcome State Fault Refusal :=
  complete s

/-- `END` (R297): not executed: `PC` stays at the address of the word, `fetch_done <- 1`, the core
is `Ended` at once in non-pipelined mode, in the one cycle that fetched it (46_pipeline.md R344, R346). Not counted in `n_issued`
or `n_retired`. -/
def execEndOfTest (s : State) : Host.Outcome State Fault Refusal :=
  .next { s with status := .ended, fetchDone := true, nCycles := s.nCycles + 1 }

end Sys2Proof.Machine
end

