-- ==== Sys2Proof/Machine/Dispatch.lean ====
section
/-! DEFINITION. The meaning of every instruction: one arm per constructor of `Instr`. -/

namespace Sys2Proof.Machine

/-- The whole effect of one instruction in the state fetch leaves, `pc` being its own address (46_pipeline.md R345). -/
def exec (i : Instr) (s : State) : Host.Outcome State Fault Refusal :=
  match i with
  | .addi d a imm => Sys2Proof.Machine.execAddi d a imm s
  | .ori d a imm => Sys2Proof.Machine.execOri d a imm s
  | .slli d a l => Sys2Proof.Machine.execSlli d a l s
  | .srli d a l => Sys2Proof.Machine.execSrli d a l s
  | .srai d a l => Sys2Proof.Machine.execSrai d a l s
  | .rori d a l => Sys2Proof.Machine.execRori d a l s
  | .movhi d k => Sys2Proof.Machine.execMovhi d k s
  | .macrc d => Sys2Proof.Machine.execMacrc d s
  | .add d a b => Sys2Proof.Machine.execAdd d a b s
  | .sub d a b => Sys2Proof.Machine.execSub d a b s
  | .or d a b => Sys2Proof.Machine.execOr d a b s
  | .sll d a b => Sys2Proof.Machine.execSll d a b s
  | .sra d a b => Sys2Proof.Machine.execSra d a b s
  | .and d a b => Sys2Proof.Machine.execAnd d a b s
  | .xor d a b => Sys2Proof.Machine.execXor d a b s
  | .cmov d a b => Sys2Proof.Machine.execCmov d a b s
  | .ff1 d a => Sys2Proof.Machine.execFf1 d a s
  | .srl d a b => Sys2Proof.Machine.execSrl d a b s
  | .ror d a b => Sys2Proof.Machine.execRor d a b s
  | .exths d a => Sys2Proof.Machine.execExths d a s
  | .extbs d a => Sys2Proof.Machine.execExtbs d a s
  | .exthz d a => Sys2Proof.Machine.execExthz d a s
  | .extbz d a => Sys2Proof.Machine.execExtbz d a s
  | .extws d a => Sys2Proof.Machine.execExtws d a s
  | .extwz d a => Sys2Proof.Machine.execExtwz d a s
  | .mul d a b => Sys2Proof.Machine.execMul d a b s
  | .div d a b => Sys2Proof.Machine.execDiv d a b s
  | .divu d a b => Sys2Proof.Machine.execDivu d a b s
  | .mulu d a b => Sys2Proof.Machine.execMulu d a b s
  | .sfeq a b => Sys2Proof.Machine.execSfeq a b s
  | .sfne a b => Sys2Proof.Machine.execSfne a b s
  | .sfges a b => Sys2Proof.Machine.execSfges a b s
  | .sfles a b => Sys2Proof.Machine.execSfles a b s
  | .sfeqi a imm => Sys2Proof.Machine.execSfeqi a imm s
  | .sfnei a imm => Sys2Proof.Machine.execSfnei a imm s
  | .sfgesi a imm => Sys2Proof.Machine.execSfgesi a imm s
  | .sflesi a imm => Sys2Proof.Machine.execSflesi a imm s
  | .sfgtu a b => Sys2Proof.Machine.execSfgtu a b s
  | .sfgeu a b => Sys2Proof.Machine.execSfgeu a b s
  | .sfltu a b => Sys2Proof.Machine.execSfltu a b s
  | .sfleu a b => Sys2Proof.Machine.execSfleu a b s
  | .sfgts a b => Sys2Proof.Machine.execSfgts a b s
  | .sflts a b => Sys2Proof.Machine.execSflts a b s
  | .sfgtui a imm => Sys2Proof.Machine.execSfgtui a imm s
  | .sfgeui a imm => Sys2Proof.Machine.execSfgeui a imm s
  | .sfltui a imm => Sys2Proof.Machine.execSfltui a imm s
  | .sfleui a imm => Sys2Proof.Machine.execSfleui a imm s
  | .sfgtsi a imm => Sys2Proof.Machine.execSfgtsi a imm s
  | .sfltsi a imm => Sys2Proof.Machine.execSfltsi a imm s
  | .lwa d a imm => Sys2Proof.Machine.execLwa d a imm s
  | .lwz d a imm => Sys2Proof.Machine.execLwz d a imm s
  | .lws d a imm => Sys2Proof.Machine.execLws d a imm s
  | .lbz d a imm => Sys2Proof.Machine.execLbz d a imm s
  | .lbs d a imm => Sys2Proof.Machine.execLbs d a imm s
  | .lhz d a imm => Sys2Proof.Machine.execLhz d a imm s
  | .lhs d a imm => Sys2Proof.Machine.execLhs d a imm s
  | .lf d a imm => Sys2Proof.Machine.execLf d a imm s
  | .swa imm a b => Sys2Proof.Machine.execSwa imm a b s
  | .sw imm a b => Sys2Proof.Machine.execSw imm a b s
  | .sb imm a b => Sys2Proof.Machine.execSb imm a b s
  | .sh imm a b => Sys2Proof.Machine.execSh imm a b s
  | .sd imm a b => Sys2Proof.Machine.execSd imm a b s
  | .ld d a imm => Sys2Proof.Machine.execLd d a imm s
  | .j n => Sys2Proof.Machine.execJ n s
  | .jal n => Sys2Proof.Machine.execJal n s
  | .bf n => Sys2Proof.Machine.execBf n s
  | .bnf n => Sys2Proof.Machine.execBnf n s
  | .jr b => Sys2Proof.Machine.execJr b s
  | .jalr b => Sys2Proof.Machine.execJalr b s
  | .nop k => Sys2Proof.Machine.execNop k s
  | .msync => Sys2Proof.Machine.execMsync s
  | .psync => Sys2Proof.Machine.execPsync s
  | .csync => Sys2Proof.Machine.execCsync s
  | .sys k => Sys2Proof.Machine.execSys k s
  | .trap k => Sys2Proof.Machine.execTrap k s
  | .adrp d n => Sys2Proof.Machine.execAdrp d n s
  | .endOfTest => Sys2Proof.Machine.execEndOfTest s

end Sys2Proof.Machine
end

