-- ==== Sys2Proof/Machine/HostInterface.lean ====
section
/-! DEFINITION. What the host does before the first cycle and sees after the last (70_reset_and_hazards.md R383 to R385). None of it
happens while the core runs (R384). -/

namespace Sys2Proof.Machine

/-- Reset over the memory behind the bus, which it does not touch (R383 step 1, R380, R381). -/
def State.hostReset (s : State) (pipelined : Bool) (endWord : Word) (bus : Config.Bus) : State :=
  State.resetWith pipelined endWord bus s.mem

/-- One write request of the host to the bus, of a size the bus has, at an address of the space; `none` if the bus refuses it
(R383 step 2, 20_memory.md R50 to R53). -/
def State.hostWrite (s : State) (a : Nat) (bytes : List Byte) : Option State :=
  if validSize bytes.length && decide (a < Config.addressSpace) then
    (busWrite s.bus s.mem a bytes).map (fun m => { s with mem := m })
  else none

/-- A list of write requests in order, each at its address; `none` if the bus refuses one. -/
def State.hostRequests (s : State) (requests : List (Nat × List Byte)) : Option State :=
  match requests with
  | [] => some s
  | (a, bytes) :: rest =>
    match s.hostWrite a bytes with
    | some t => t.hostRequests rest
    | none => none

/-- The bytes of a program or of data loaded from address `a` upward, one request a byte (R383 step 2). -/
def State.hostLoad (s : State) (a : Nat) (bytes : List Byte) : Option State :=
  s.hostRequests (bytes.mapIdx (fun k b => (a + k, [b])))

/-- Words loaded from address `a` upward, one big-endian request a word (R383 step 2, 20_memory.md R57). -/
def State.hostLoadWords (s : State) (a : Nat) (words : List Word) : Option State :=
  s.hostRequests (words.mapIdx (fun k w => (a + 4 * k, bytesOfWord w)))

/-- An initial register value (R383 step 3). -/
def State.hostSetRegister (s : State) (i : RegIdx) (v : Word) : State := s.writeReg i v

/-- Initial register values, in order (R383 step 3). -/
def State.hostSetRegisters (s : State) (values : List (RegIdx × Word)) : State :=
  match values with
  | [] => s
  | (i, v) :: rest => (s.hostSetRegister i v).hostSetRegisters rest

/-- `PC <- ENTRY_PC` (R383 step 4, R382). -/
def State.hostSetEntry (s : State) (entry : Word) : State := { s with pc := entry }

/-- The whole set-up in its order: reset, the image through the bus, registers, the entry point (R383). `none` if the bus refuses a
request of the image. -/
def State.hostSetUp (s : State) (pipelined : Bool) (endWord : Word) (bus : Config.Bus) (image : List (Nat × List Byte))
    (values : List (RegIdx × Word)) (entry : Word) : Option State :=
  match (s.hostReset pipelined endWord bus).hostRequests image with
  | some t => some ((t.hostSetRegisters values).hostSetEntry entry)
  | none => none

/-- What the host may read once the core has stopped (R385). -/
structure Observation where
  status : Status
  regs : List Word
  mem : Memory
  pc : Word
  npc : Word
  ds : Fin 3
  flag : Bool
  nIssued : Nat
  nRetired : Nat
  nCycles : Nat
deriving DecidableEq, Repr

/-- The general registers `x[0] .. x[31]` as read. -/
def State.readAll (s : State) : List Word := (List.range 32).map (fun i => s.readReg (BitVec.ofNat 5 i))

/-- The host's view of a state (R385). -/
def State.observe (s : State) : Observation where
  status := s.status
  regs := s.readAll
  mem := s.mem
  pc := s.pc
  npc := s.npc
  ds := s.ds
  flag := s.flag
  nIssued := s.nIssued
  nRetired := s.nRetired
  nCycles := s.nCycles

end Sys2Proof.Machine
end

