-- ==== Sys2Proof/Machine/ControlSignals.lean ====
section
/-! DEFINITION. The control-signal generator (40_alu_and_control.md R135 to R149): a pure function of the mnemonic (R136). Each
mapping names its opcodes and gives everything else the default, as the rules do (R137). -/

namespace Sys2Proof.Machine

/-- `alu_op` (R138). -/
def aluOpOf (m : Mnemonic) : AluOp :=
  match m with
  | .lbz | .lbs | .lhz | .lhs | .lwz | .lws | .ld | .lwa | .lf => .add
  | .sb | .sh | .sw | .sd | .swa => .add
  | .addi | .add => .add
  | .ori | .or => .or
  | .movhi => .movhi
  | .sfeq | .sfeqi => .eq
  | .sfne | .sfnei => .neq
  | .sfges | .sfgesi => .ge
  | .sfles | .sflesi => .le
  | .sub => .sub
  | .sll => .sll
  | .sra => .sra
  | _ => .nop

/-- `sel_a` (R139). -/
def selAOf (m : Mnemonic) : SelectA :=
  match m with
  | .addi | .ori => .rs1
  | .lbz | .lbs | .lhz | .lhs | .lwz | .lws | .ld | .lwa | .lf => .rs1
  | .sb | .sh | .sw | .sd | .swa => .rs1
  | .add | .sub | .or | .sll | .sra => .rs1
  | .slli | .srai => .rs1
  | .movhi => .rd
  | _ => .unselected

/-- `sel_b` (R140). -/
def selBOf (m : Mnemonic) : SelectB :=
  match m with
  | .add | .sub | .or | .sll | .sra => .rs2
  | .sfeq | .sfne | .sfges | .sfles => .rs2
  | .jr | .jalr => .rs2
  | .addi | .ori | .movhi | .slli | .srai => .imm
  | .lbz | .lbs | .lhz | .lhs | .lwz | .lws | .ld | .lwa | .lf => .imm
  | .sb | .sh | .sw | .sd | .swa => .imm
  | .sfeqi | .sfnei | .sfgesi | .sflesi => .imm
  | .j | .jal | .bf | .bnf => .imm
  | _ => .unselected

/-- `mem_mode` (R142). -/
def memModeOf (m : Mnemonic) : MemMode :=
  match m with
  | .lbz | .lbs | .lhz | .lhs | .lwz | .lws | .ld | .lwa | .lf => .load
  | .sb | .sh | .sw | .sd | .swa => .store
  | _ => .noAccess

/-- `wb_in` (R143): memory for the loads only (C5). -/
def wbInOf (m : Mnemonic) : WriteBackInput :=
  match m with
  | .lbz | .lbs | .lhz | .lhs | .lwz | .lws | .ld | .lwa | .lf => .mem
  | _ => .alu

/-- `wb_out` (R146): the allow-list by primary opcode. -/
def wbOutOf (m : Mnemonic) : WriteBackOutput :=
  match m with
  | .add | .sub | .and | .or | .xor | .cmov | .ff1 | .sll | .srl | .sra | .ror => .write
  | .exths | .extbs | .exthz | .extbz | .extws | .extwz | .mul | .div | .divu | .mulu => .write
  | .addi | .ori | .movhi | .macrc | .jal => .write
  | .slli | .srli | .srai | .rori => .write
  | .lbz | .lbs | .lhz | .lhs | .lwz | .lws | .ld | .lwa | .lf => .write
  | _ => .noWrite

/-- `size` in bytes (R144): 1 for anything unspecified, the half-word and float opcodes among them (C3). -/
def sizeOf (m : Mnemonic) : Nat :=
  match m with
  | .ld | .sd => 8
  | .lwz | .lws | .lwa | .sw | .swa => 4
  | _ => 1

/-- `sext` (R145). -/
def sextOf (m : Mnemonic) : Bool :=
  match m with
  | .lws | .lbs => true
  | _ => false

/-- The bundle of an instruction (R136, R148). -/
def controlBundle (m : Mnemonic) : ControlBundle where
  aluOp := aluOpOf m
  selA := selAOf m
  selB := selBOf m
  memMode := memModeOf m
  wbIn := wbInOf m
  wbOut := wbOutOf m
  size := sizeOf m
  sext := sextOf m

/-- `add(decoder)`, the displacement added to `pc` (R147): the only getter that also takes a register's value. -/
def displacement (m : Mnemonic) (imm rs2Val : Word) : Word :=
  match m with
  | .j | .jal | .bf | .bnf => imm <<< 2
  | .jr | .jalr => rs2Val
  | _ => 0#32

end Sys2Proof.Machine
end

