-- ==== Sys2Proof/Machine/Pipeline.lean ====
section
/-! DEFINITION. The cycle-level machine (46_pipeline.md): the five stages, each a propagate and a clockPulse, and the orchestrator
in both modes. A propagate reads a state and answers what its clockPulse will commit, or a terminal condition. -/

namespace Sys2Proof.Machine

/-! ### Fetch (R315 to R318) -/

/-- Fetch, propagate: the delay-slot protocol takes effect at once (R315), the word is read (R316), `END_WORD` makes a bubble and
sets `fetch_done` (R317); the answer is the state so far and the fetch stage's output. -/
def fetchPropagate (s : State) : Except Fault (State × Option IfId) :=
  if s.fetchDone then .ok (s, none)
  else
    match s.applyDelaySlot.fetchWord with
    | .error r => .error r
    | .ok w =>
      if w = s.endWord then .ok ({ s.applyDelaySlot with fetchDone := true }, none)
      else .ok (s.applyDelaySlot, some { pc := s.applyDelaySlot.pc, iw := w })

/-- Fetch, clockPulse (R318): `PC` advances when the output is valid. -/
def fetchClock (s : State) (out : Option IfId) : State :=
  { s with ifid := Latch.commit IfId.zero out, pc := if out.isSome then s.pc + 4#32 else s.pc }

/-! ### Decode (R319 to R323) -/

/-- What decode's clockPulse commits: the latch, the flag a compare writes, the target of a taken transfer. -/
structure DecodeOutput where
  latch : IdEx
  newFlag : Option Bool
  target : Option Word
deriving DecidableEq, Repr

/-- The index on the second read port: forced to the link register for `l.jr` (R320). -/
def secondReadIndex (m : Mnemonic) (w : Word) : RegIdx := if m = .jr then Config.linkRegister else fieldB w

/-- The destination index: forced to the link register for `l.jal` (R320). -/
def destinationIndex (m : Mnemonic) (w : Word) : RegIdx := if m = .jal then Config.linkRegister else fieldD w

/-- The stashed return address (R320). -/
def returnAddress (m : Mnemonic) (pc : Word) : Word := if m = .jal then pc + 8#32 else 0#32

/-- The transfer is taken (R321). -/
def transferTaken (m : Mnemonic) (flag : Bool) : Bool :=
  match m with
  | .j | .jal | .jr | .jalr => true
  | .bf => flag
  | .bnf => !flag
  | _ => false

/-- The flag of an implemented compare, register or immediate form (R321, 42_compare.md R210). -/
def decodedFlag (ctl : ControlBundle) (rs1Val rs2Val imm : Word) : Option Bool :=
  if ctl.aluOp.isCompare then
    some (compareFlag ctl.aluOp rs1Val (if ctl.selB = .rs2 then rs2Val else imm))
  else none

/-- Decode of a resolved instruction: registers and `FLAG` are read now, before this cycle's write-back (R319 to R321). -/
def decodeResolved (s : State) (l : IfId) (m : Mnemonic) : DecodeOutput where
  latch :=
    { pc := l.pc
      instr := m
      ctl := controlBundle m
      rs1Val := s.readReg (fieldA l.iw)
      rs2Val := s.readReg (secondReadIndex m l.iw)
      imm := getImmediate m l.iw
      rd := destinationIndex m l.iw
      link := returnAddress m l.pc }
  newFlag :=
    decodedFlag (controlBundle m) (s.readReg (fieldA l.iw)) (s.readReg (secondReadIndex m l.iw)) (getImmediate m l.iw)
  target :=
    if transferTaken m s.flag then
      some (l.pc + displacement m (getImmediate m l.iw) (s.readReg (secondReadIndex m l.iw)))
    else none

/-- Decode, propagate (R319 to R321); a word that resolves to nothing raises `IllegalInstruction` (R323). -/
def decodePropagate (s : State) : Except Fault (Option DecodeOutput) :=
  match s.ifid.out with
  | none => .ok none
  | some l =>
    match resolve s.endWord l.iw with
    | .ok m => .ok (some (decodeResolved s l m))
    | .error _ => .error (.illegalInstruction l.pc l.iw)

/-- Decode, clockPulse (R322): the only writes to `FLAG` and `NPC` anywhere. -/
def decodeClock (s : State) (out : Option DecodeOutput) : State :=
  match out with
  | none => { s with idex := Latch.bubble IdEx.zero }
  | some o =>
    let issued : State := { s with idex := Latch.commit IdEx.zero (some o.latch), nIssued := s.nIssued + 1 }
    let flagged : State := match o.newFlag with
      | some f => issued.setFlag f
      | none => issued
    match o.target with
    | some t => flagged.transfer t
    | none => flagged

/-! ### Execute (R324 to R328) -/

/-- The opcodes that skip the ALU entirely (R324). -/
def skipsAlu (m : Mnemonic) : Bool :=
  match m with
  | .j | .bf | .bnf | .jr | .jalr | .nop => true
  | .sfeq | .sfne | .sfges | .sfles | .sfgtu | .sfgeu | .sfltu | .sfleu | .sfgts | .sflts => true
  | .sfeqi | .sfnei | .sfgesi | .sflesi | .sfgtui | .sfgeui | .sfltui | .sfleui | .sfgtsi | .sfltsi => true
  | _ => false

/-- The general case: the operand muxes and the ALU (R328), and the unselected operands of R325. Following `sel_a = RD`, which has
no port behind it (10_state.md R23), is a misuse no bundle reaches: `l.movhi` is wired directly (log entry 15). -/
def executeMuxed (l : IdEx) : Except Fault Word :=
  match l.ctl.selA, l.ctl.selB with
  | .unselected, _ => .ok 0#32
  | _, .unselected => .ok 0#32
  | .rs1, .rs2 => .ok (aluEval l.ctl.aluOp l.rs1Val l.rs2Val)
  | .rs1, .imm => .ok (aluEval l.ctl.aluOp l.rs1Val l.imm)
  | .rd, _ => .error (.invalidConfiguration .operandSelector)

/-- `ALUout` (R324 to R328): the direct wirings of R326 and R327 go before the muxes. -/
def executeResult (l : IdEx) : Except Fault Word :=
  if skipsAlu l.instr then .ok 0#32
  else
    match l.instr with
    | .jal => .ok l.link
    | .movhi => .ok (aluEval .sll l.imm 16#32)
    | .slli => .ok (aluEval .sll l.rs1Val (shiftAmount l.imm))
    | .srai => .ok (aluEval .sra l.rs1Val (shiftAmount l.imm))
    | .sll => .ok (aluEval .sll l.rs1Val (shiftAmount l.rs2Val))
    | .sra => .ok (aluEval .sra l.rs1Val (shiftAmount l.rs2Val))
    | _ => executeMuxed l

/-- Execute, propagate (R324 to R328). -/
def executePropagate (s : State) : Except Fault (Option ExM) :=
  match s.idex.out with
  | none => .ok none
  | some l =>
    match executeResult l with
    | .ok v =>
      .ok (some { pc := l.pc, instr := l.instr, ctl := l.ctl, aluOut := v, rs2Val := l.rs2Val, rd := l.rd, link := l.link })
    | .error r => .error r

/-- Execute, clockPulse (R328). -/
def executeClock (s : State) (out : Option ExM) : State := { s with exm := Latch.commit ExM.zero out }

/-! ### Memory (R330, R331) -/

/-- The one access of an instruction and the value it brings (R331): memory after it and `mem_out`. -/
def memoryAccess (s : State) (l : ExM) : Except Fault (Memory × Word) :=
  match l.ctl.memMode with
  | .noAccess => .ok (s.mem, 0#32)
  | .load =>
    match s.memRead l.aluOut l.ctl.size with
    | .ok v => .ok (s.mem, extendLoaded l.ctl.size l.ctl.sext v)
    | .error r => .error r
  | .store =>
    match s.memWrite l.aluOut l.ctl.size (l.rs2Val.setWidth 64) with
    | .ok m => .ok (m, 0#32)
    | .error r => .error r

/-- Memory: the propagate prepares the request (R330) and the clockPulse makes it (R331); the answer is the memory and the M/WB latch
to commit. -/
def memoryStage (s : State) : Except Fault (Memory × Option MWb) :=
  match s.exm.out with
  | none => .ok (s.mem, none)
  | some l =>
    match memoryAccess s l with
    | .ok (m, v) =>
      .ok (m, some { pc := l.pc, instr := l.instr, ctl := l.ctl, aluOut := l.aluOut, memOut := v, rd := l.rd, link := l.link })
    | .error r => .error r

/-- Memory, the commit of its clockPulse (R331). -/
def memoryClock (s : State) (out : Memory × Option MWb) : State := { s with mem := out.1, mwb := Latch.commit MWb.zero out.2 }

/-! ### Write-back (R334 to R336) -/

/-- `we` (R334). -/
def writeEnabled (l : MWb) : Bool := l.ctl.wbOut == .write || l.instr == .jal

/-- The register written (R335). -/
def writeBackIndex (l : MWb) : RegIdx := if l.instr = .jal then Config.linkRegister else l.rd

/-- The value written (R335). -/
def writeBackValue (l : MWb) : Word :=
  if l.instr = .jal then l.link
  else match l.ctl.wbIn with
    | .mem => l.memOut
    | .alu => l.aluOut

/-- Write-back, clockPulse, on the M/WB latch as it stood when the cycle began (R336). -/
def writeBackClock (s : State) (l : Option MWb) : State :=
  match l with
  | none => s
  | some l =>
    let written : State := if writeEnabled l then s.writeReg (writeBackIndex l) (writeBackValue l) else s
    { written with nRetired := written.nRetired + 1 }

/-! ### The orchestrator (R340 to R344) -/

/-- The pipelined cycle before the count of cycles (R341): every propagate sees the latches, registers and memory as the cycle
began; conditions are met in the order fetch, decode, execute, memory (60_exceptions.md R367). -/
def pipelinedStages (s : State) : Except Fault State :=
  match fetchPropagate s with
  | .error r => .error r
  | .ok (s1, f) =>
    match decodePropagate s with
    | .error r => .error r
    | .ok d =>
      match executePropagate s with
      | .error r => .error r
      | .ok e =>
        match memoryStage s with
        | .error r => .error r
        | .ok m => .ok (writeBackClock (memoryClock (executeClock (decodeClock (fetchClock s1 f) d) e) m) s.mwb.out)

/-- The one stage that acts in a non-pipelined cycle (R342). -/
def activeStage (s : State) : Except Fault State :=
  match s.cursor with
  | 0 =>
    match fetchPropagate s with
    | .ok (s1, f) => .ok (fetchClock s1 f)
    | .error r => .error r
  | 1 =>
    match decodePropagate s with
    | .ok d => .ok (decodeClock s d)
    | .error r => .error r
  | 2 =>
    match executePropagate s with
    | .ok e => .ok (executeClock s e)
    | .error r => .error r
  | 3 =>
    match memoryStage s with
    | .ok m => .ok (memoryClock s m)
    | .error r => .error r
  | 4 => .ok (writeBackClock s s.mwb.out)

/-- The non-pipelined cycle before the count of cycles: the active stage, then the cursor (R342). -/
def roundRobinStage (s : State) : Except Fault State :=
  match activeStage s with
  | .ok t => .ok { t with cursor := t.cursor + 1 }
  | .error r => .error r

/-- All four latches are bubbles (R344). -/
def State.drained (s : State) : Bool := !s.ifid.valid && !s.idex.valid && !s.exm.valid && !s.mwb.valid

/-- The termination check after a cycle (R344). -/
def State.checkEnd (s : State) : State :=
  if s.fetchDone && (!s.pipelined || s.drained) then { s with status := .ended } else s

/-- The end of a cycle: one more cycle is counted, then the termination check (R340). -/
def State.endCycle (s : State) : State := State.checkEnd { s with nCycles := s.nCycles + 1 }

/-- One clock cycle of a running core (R340). A condition stops the cycle (R344). -/
def runningCycle (s : State) : Host.Outcome State Fault Refusal :=
  match if s.pipelined then pipelinedStages s else roundRobinStage s with
  | .ok t => .next t.endCycle
  | .error r => raise r

/-- `Cycle(s)`: a core that is not running takes no cycle (R340, 60_exceptions.md R360; log entry 6). -/
def cycle (s : State) : Host.Outcome State Fault Refusal :=
  match s.status with
  | .running => runningCycle s
  | .ended => .next s
  | .faulted r => raise r

/-- `k` clock cycles, stopping at a condition: the host's run loop with a bound (70_reset_and_hazards.md R384). -/
def cycles (k : Nat) (s : State) : Host.Outcome State Fault Refusal :=
  match k with
  | 0 => .next s
  | k + 1 =>
    match cycle s with
    | .next t => cycles k t
    | .fault r => .fault r
    | .refused r => .refused r

end Sys2Proof.Machine
end

