-- ==== Sys2Proof/Machine/Step.lean ====
section
/-! DEFINITION. One step of the machine. A non-pipelined core at an instruction boundary takes a whole instruction, `Step` of
46_pipeline.md R345, which is five clock cycles (R346); a core that is pipelined, or stands inside an instruction, takes one
clock cycle (R340; log entry 7). -/

namespace Sys2Proof.Machine

/-- `Step` (R345): the delay-slot protocol, the fetch, the decoder, the whole effect of the instruction. -/
def instructionStep (s : State) : Host.Outcome State Fault Refusal :=
  match s.applyDelaySlot.fetchWord with
  | .error r => raise r
  | .ok w =>
    match decode s.endWord w with
    | .error _ => raise (.illegalInstruction s.applyDelaySlot.pc w)
    | .ok i => exec i s.applyDelaySlot

/-- The core is non-pipelined, stands between two instructions and still fetches: `Step` of R345 applies. -/
def State.atInstructionBoundary (s : State) : Bool := !s.pipelined && s.cursor == 0 && !s.fetchDone

/-- One step. A core that is not running takes none (R340, R360; log entry 6). -/
def step (s : State) : Host.Outcome State Fault Refusal :=
  match s.status with
  | .running => if s.atInstructionBoundary then instructionStep s else cycle s
  | .ended => .next s
  | .faulted r => raise r

/-- `s` with the instruction of `w` (its low `nbits` bits, the bits above them zero) stored where the next fetch reads, big-endian
(20_memory.md R57). It stands for an image in which that word stands there (70_reset_and_hazards.md R383), and writes the bytes
behind the bus, so that read-only memory can hold them too (log entry 14). Past the end of the address space no fetch succeeds and
there is nothing to store into. -/
def State.withFetchWord (s : State) (nbits w : Nat) : State :=
  if s.fetchAddress.toNat + 4 ≤ Config.addressSpace then
    { s with mem := Memory.writeBytes s.mem s.fetchAddress.toNat (bytesOfWord (BitVec.ofNat 32 (w % 2 ^ nbits))) }
  else s

end Sys2Proof.Machine
end

