-- ==== Sys2Proof/Safety.lean ====
section
/-! DEFINITION. The terms claims are stated in: what an instruction leaves unchanged, what the host sets up, what a safe run is, and
the invariants of the machine. -/

namespace Sys2Proof.Machine

/-! ### What an instruction leaves unchanged -/

/-- Every general register reads as before. -/
def SameRegisters (s t : State) : Prop := ∀ i : RegIdx, t.readReg i = s.readReg i

/-- Every general register but `d` reads as before. -/
def SameRegistersBut (d : RegIdx) (s t : State) : Prop := ∀ i : RegIdx, i ≠ d → t.readReg i = s.readReg i

/-- Every byte of memory reads as before. -/
def SameMemory (s t : State) : Prop := ∀ a : Nat, Memory.read t.mem a = Memory.read s.mem a

/-- Every byte of memory outside the `n` bytes from `first` upward reads as before. -/
def SameMemoryOutside (first n : Nat) (s t : State) : Prop :=
  ∀ a : Nat, a < first ∨ first + n ≤ a → Memory.read t.mem a = Memory.read s.mem a

/-- `NPC` and `DS` are as before. -/
def SameTransfer (s t : State) : Prop := t.npc = s.npc ∧ t.ds = s.ds

/-- The core runs on as before, under the same parameters. -/
def SameControl (s t : State) : Prop :=
  t.status = s.status ∧ t.fetchDone = s.fetchDone ∧ t.pipelined = s.pipelined ∧ t.endWord = s.endWord ∧ t.bus = s.bus

/-- The instruction has completed: `PC` stands at the next address and the instruction is counted (46_pipeline.md R345). -/
def Completed (s t : State) : Prop :=
  t.pc = s.pc + 4#32 ∧ t.nIssued = s.nIssued + 1 ∧ t.nRetired = s.nRetired + 1

/-- The whole effect of an instruction that only writes `v` to register `d`; to r0 it writes nothing (10_state.md R22). -/
structure OnlyWritesRegister (d : RegIdx) (v : Word) (s t : State) : Prop where
  result : t.readReg d = if d = 0#5 then 0#32 else v
  registers : SameRegistersBut d s t
  flag : t.flag = s.flag
  transfer : SameTransfer s t
  memory : SameMemory s t
  control : SameControl s t
  completed : Completed s t

/-- The whole effect of an instruction that only writes `f` to `FLAG`. -/
structure OnlyWritesFlag (f : Bool) (s t : State) : Prop where
  flag : t.flag = f
  registers : SameRegisters s t
  transfer : SameTransfer s t
  memory : SameMemory s t
  control : SameControl s t
  completed : Completed s t

/-- The whole effect of an instruction with no effect but to complete. -/
structure ChangesNothing (s t : State) : Prop where
  registers : SameRegisters s t
  flag : t.flag = s.flag
  transfer : SameTransfer s t
  memory : SameMemory s t
  control : SameControl s t
  completed : Completed s t

/-- The whole effect of a taken transfer to `target` that writes no register (44_control_transfer.md R270). -/
structure OnlyTransfers (target : Word) (s t : State) : Prop where
  npc : t.npc = target
  ds : t.ds = if s.pipelined then 2 else 1
  registers : SameRegisters s t
  flag : t.flag = s.flag
  memory : SameMemory s t
  control : SameControl s t
  completed : Completed s t

/-- The whole effect of a store of the bytes `bytes` at the address `first` and upward. -/
structure OnlyStores (first : Nat) (bytes : List Byte) (s t : State) : Prop where
  stored : Memory.readBytes t.mem first bytes.length = bytes
  memory : SameMemoryOutside first bytes.length s t
  registers : SameRegisters s t
  flag : t.flag = s.flag
  transfer : SameTransfer s t
  control : SameControl s t
  completed : Completed s t

/-- The whole effect of a store on any bus: memory is what the bus answered to the write (20_memory.md R55). -/
structure OnlyReplacesMemory (m : Memory) (s t : State) : Prop where
  memory : t.mem = m
  registers : SameRegisters s t
  flag : t.flag = s.flag
  transfer : SameTransfer s t
  control : SameControl s t
  completed : Completed s t

/-! ### Fields and windows as the spec writes them -/

/-- The two's-complement reading of an `n`-bit field with the unsigned value `f` (00_scope.md R10). -/
def signedField (n f : Nat) : Int := if f < 2 ^ (n - 1) then (f : Int) else (f : Int) - 2 ^ n

/-- The word that memory holds at `a .. a+3` in big-endian order (20_memory.md R57). -/
def wordAt (m : Memory) (a : Nat) : Word :=
  wordOfBytes (Memory.read m a) (Memory.read m (a + 1)) (Memory.read m (a + 2)) (Memory.read m (a + 3))

/-- The word the bus answers to a request for the four bytes at `a`, `none` if it refuses (20_memory.md R54, R57). -/
def State.busWord (s : State) (a : Word) : Option Word :=
  match busRead s.bus s.mem a.toNat 4 with
  | some [b0, b1, b2, b3] => some (wordOfBytes b0 b1 b2 b3)
  | _ => none

/-- The byte the bus answers at `a`, `none` if it refuses (20_memory.md R54). -/
def State.busByte (s : State) (a : Word) : Option Byte :=
  match busRead s.bus s.mem a.toNat 1 with
  | some [b] => some b
  | _ => none

/-- The low word of the eight bytes the bus answers at `a`, `none` if it refuses (20_memory.md R54, 43_load_store.md R256). -/
def State.busLowWord (s : State) (a : Word) : Option Word :=
  match busRead s.bus s.mem a.toNat 8 with
  | some [_, _, _, _, b4, b5, b6, b7] => some (wordOfBytes b4 b5 b6 b7)
  | _ => none

/-- A row of the ADD family's table (30_encoding.md R100) matches the word. -/
def addFamilyRow (w : Word) : Prop :=
  (w.extractLsb' 8 2 = 0#2 ∧ w.extractLsb' 0 4 ∈ [0x0#4, 0x2#4, 0x3#4, 0x4#4, 0x5#4, 0xE#4, 0xF#4, 0x8#4, 0xC#4]) ∨
  (w.extractLsb' 8 2 = 0#2 ∧ w.extractLsb' 0 4 = 0xD#4 ∧ w.extractLsb' 6 2 ∈ [0#2, 1#2]) ∨
  (w.extractLsb' 8 2 = 3#2 ∧ w.extractLsb' 0 4 ∈ [0x6#4, 0x9#4, 0xA#4, 0xB#4])

/-- The words that resolve to nothing: the list of 30_encoding.md R107 by the top six bits, and the words of the ADD family that are
in no row (R106). -/
def illegalWord (w : Word) : Prop :=
  (w.extractLsb' 26 6 = 0x05#6 ∧ w.extractLsb' 24 2 ≠ 1#2) ∨
  (w.extractLsb' 26 6 = 0x08#6 ∧ w.extractLsb' 16 16 ∉ [0x2000#16, 0x2100#16] ∧
    w ∉ [0x22000000#32, 0x22800000#32, 0x23000000#32]) ∨
  ((w.extractLsb' 26 6 = 0x2F#6 ∨ w.extractLsb' 26 6 = 0x39#6) ∧
    w.extractLsb' 21 5 ∉ [0#5, 1#5, 2#5, 3#5, 4#5, 5#5, 10#5, 11#5, 12#5, 13#5]) ∨
  (w.extractLsb' 26 6 = 0x38#6 ∧ ¬ addFamilyRow w) ∨
  w.extractLsb' 26 6 ∈ [0x07#6, 0x09#6, 0x0A#6, 0x0B#6, 0x0C#6, 0x0D#6, 0x0E#6, 0x0F#6, 0x10#6, 0x13#6, 0x14#6, 0x15#6,
    0x16#6, 0x17#6, 0x18#6, 0x19#6, 0x1C#6, 0x1D#6, 0x1E#6, 0x1F#6, 0x28#6, 0x29#6, 0x2B#6, 0x2C#6, 0x2D#6, 0x30#6,
    0x31#6, 0x32#6, 0x3A#6, 0x3B#6, 0x3C#6, 0x3D#6, 0x3E#6, 0x3F#6]

/-! ### Runs -/

/-- What the host's set-up leaves (70_reset_and_hazards.md R383): the reset values but for memory, the registers and `PC`, bubbles in the
latches whatever their fields, with any parameters. -/
structure StartState (s : State) : Prop where
  memory : Memory.wf s.mem = true
  latches : s.ifid.valid = false ∧ s.idex.valid = false ∧ s.exm.valid = false ∧ s.mwb.valid = false
  cells : s.npc = 0#32 ∧ s.ds = 0 ∧ s.flag = false ∧ s.cursor = 0
  running : s.status = .running ∧ s.fetchDone = false
  counters : s.nIssued = 0 ∧ s.nRetired = 0 ∧ s.nCycles = 0

/-- `k` steps of the machine from `s` meet no terminal fault. -/
def SafeFor (k : Nat) (s : State) : Prop := ∃ t, Host.Core.run Sys2Proof.core k s = .next t

/-- Some number of clock cycles from `s` brings the core to `Ended` in the state `t` (60_exceptions.md R363). -/
def EndsIn (s t : State) : Prop := ∃ k, cycles k s = .next t ∧ t.status = .ended

/-! ### The invariant -/

/-- ID/EX carries a recognised instruction with its own bundle, link value and, for `l.jal`, the link register. -/
structure IdExConsistent (l : IdEx) : Prop where
  instr : l.instr ≠ .endOfTest
  bundle : l.ctl = controlBundle l.instr
  link : l.link = returnAddress l.instr l.pc
  rd : l.instr = .jal → l.rd = Config.linkRegister

/-- EX/M as ID/EX, with the ALU output of an instruction that selects no operand: the link for `l.jal`, else 0 (R324 to R327). -/
structure ExMConsistent (l : ExM) : Prop where
  instr : l.instr ≠ .endOfTest
  bundle : l.ctl = controlBundle l.instr
  link : l.link = returnAddress l.instr l.pc
  rd : l.instr = .jal → l.rd = Config.linkRegister
  jalOut : l.instr = .jal → l.aluOut = l.link
  noOperand : l.instr ≠ .jal → selAOf l.instr = .unselected → l.aluOut = 0#32

/-- M/WB as EX/M, with `mem_out` 0 for everything but a load (R314). -/
structure MWbConsistent (l : MWb) : Prop where
  instr : l.instr ≠ .endOfTest
  bundle : l.ctl = controlBundle l.instr
  link : l.link = returnAddress l.instr l.pc
  rd : l.instr = .jal → l.rd = Config.linkRegister
  jalOut : l.instr = .jal → l.aluOut = l.link
  noOperand : l.instr ≠ .jal → selAOf l.instr = .unselected → l.aluOut = 0#32
  memOut : memModeOf l.instr ≠ .load → l.memOut = 0#32

/-- The instructions that are issued and not yet retired in pipelined mode: one per latch after decode that is no bubble. -/
def State.inFlight (s : State) : Nat := s.idex.valid.toNat + s.exm.valid.toNat + s.mwb.valid.toNat

/-- In non-pipelined mode the latch that the active stage reads holds the resident instruction (R342). -/
def State.residentLatchFull (s : State) : Prop :=
  match s.cursor with
  | 0 => True
  | 1 => s.ifid.valid = true
  | 2 => s.idex.valid = true
  | 3 => s.exm.valid = true
  | 4 => s.mwb.valid = true

/-- The instruction of the current five cycles has been issued and not retired (R342): the cursor is past decode. -/
def State.issuedInRound (s : State) : Nat := if s.cursor = 0 ∨ s.cursor = 1 then 0 else 1

/-- The invariant of the machine: memory in canonical form, latches that carry what the stages put there, and the counters of R34
tied to the instructions in flight. -/
structure Inv (s : State) : Prop where
  memory : Memory.wf s.mem = true
  ifid : ∀ l, s.ifid.out = some l → l.iw ≠ s.endWord
  idex : ∀ l, s.idex.out = some l → IdExConsistent l
  exm : ∀ l, s.exm.out = some l → ExMConsistent l
  mwb : ∀ l, s.mwb.out = some l → MWbConsistent l
  endedFetched : s.status = .ended → s.fetchDone = true
  fetchStopped : s.fetchDone = true → (s.pipelined = true ∧ s.ifid.valid = false) ∨ (s.pipelined = false ∧ s.status = .ended)
  endedDrained : s.status = .ended → s.pipelined = true → s.drained = true
  pcFollows : s.pipelined = true → ∀ l, s.ifid.out = some l → s.pc = l.pc + 4#32
  pipelinedCounts : s.pipelined = true → s.nIssued = s.nRetired + s.inFlight
  resident : s.pipelined = false → s.status = .running → s.residentLatchFull
  runningCounts : s.pipelined = false → s.status = .running →
    s.nIssued = s.nRetired + s.issuedInRound ∧ s.nCycles = 5 * s.nRetired + s.cursor.val
  endedCounts : s.pipelined = false → s.status = .ended → s.nIssued = s.nRetired ∧ s.nCycles = 5 * s.nRetired + 1

/-- Where the pipelined core stands after `s.nCycles` cycles of a run: the instruction fetched in cycle `k` is in IF/ID after that cycle
and one latch further after each later one, and fetch brings one instruction per cycle until it meets `END_WORD` (R341, R392). -/
structure PipelineTiming (s : State) : Prop where
  ifid : s.ifid.valid = (!s.fetchDone && decide (1 ≤ s.nCycles))
  idex : s.idex.valid = (decide (2 ≤ s.nCycles) && (!s.fetchDone || decide (s.nCycles ≤ s.nIssued + 1)))
  exm : s.exm.valid = (decide (3 ≤ s.nCycles) && (!s.fetchDone || decide (s.nCycles ≤ s.nIssued + 2)))
  mwb : s.mwb.valid = (decide (4 ≤ s.nCycles) && (!s.fetchDone || decide (s.nCycles ≤ s.nIssued + 3)))
  fetching : s.fetchDone = false → s.nIssued = s.nCycles - 1
  fetched : s.fetchDone = true → s.nIssued + 1 ≤ s.nCycles
  ended : s.status = .ended ↔ s.fetchDone = true ∧ s.drained = true

end Sys2Proof.Machine
end

