-- ==== Sys2Proof/Certificates/Slice0/Obligations.lean ====
section
/-! DEFINITION. The statements for the provers. R<n> is a numbered rule of spec/. Log entries are the rows of notes/assumptions/. -/

open Sys2Proof
open Sys2Proof.Machine

/-! ### Encoding -/

/-- Decoding the encoding of an instruction gives it back, for every instruction and every `END_WORD` that is not that instruction's
own word (R82 to R103). Tier 3. -/
def Obligations.DecodeEncode : Prop :=
  ∀ (e : Word) (i : Instr), (encode e i = e → i = .endOfTest) → decode e (encode e i) = .ok i

/-- With the default `END_WORD` every well-formed instruction survives encoding into bytes and decoding from them, and the one
ill-formed term's word is `END` (R80, R103, U12). -/
def Obligations.WellFormedRoundTrip : Prop :=
  (∀ (i : Instr) (rest : List Byte), i.wellFormed = true →
    decodeBytes Config.endWordDefault (encodeBytes Config.endWordDefault i ++ rest) = .ok (i, rest)) ∧
  (∀ i : Instr, i.wellFormed = false →
    decode Config.endWordDefault (encode Config.endWordDefault i) = .ok .endOfTest)

/-- The decoder with its order of checks and secondary windows is the opcode table: a word other than `END_WORD` resolves to an
instruction exactly when it is in that instruction's row, so no word is in two rows (R84 to R103). Tier 3. -/
def Obligations.DecoderIsTheOpcodeTable : Prop :=
  (∀ (e w : Word) (m : Mnemonic), w ≠ e →
    (resolve e w = .ok m ↔ m ≠ .endOfTest ∧ inOpcodeRow e m w = true)) ∧
  (∀ e : Word, resolve e e = .ok .endOfTest)

/-- The words that decode to nothing are exactly those the spec lists (R106, R107). -/
def Obligations.IllegalWordsAreThoseListed : Prop :=
  ∀ e w : Word, (∃ r, decode e w = .error r) ↔ w ≠ e ∧ illegalWord w

/-- The reserved bits of a recognised word are ignored: its encoding is the word with them cleared, and every word that differs from
it in them alone is the same instruction (R83, R105). That the encoder clears them is the model's choice (log entry 18). -/
def Obligations.ReservedBitsAreIgnored : Prop :=
  ∀ (e w : Word) (i : Instr), w ≠ e → decode e w = .ok i →
    encode e i = w &&& significantBits i.mnemonic ∧
    ∀ v : Word, v ≠ e → v &&& significantBits i.mnemonic = w &&& significantBits i.mnemonic → decode e v = .ok i

/-- A few words of the spec's own examples decode to what they stand for (R172, R173, R185, R216, R246, R252, R255, R273, R275, R294). -/
def Obligations.SpecWordsDecode : Prop :=
  decode Config.endWordDefault 0xA8648000#32 = .ok (.ori 3#5 4#5 0x8000#16) ∧
  decode Config.endWordDefault 0xB8E10014#32 = .ok (.slli 7#5 1#5 20#6) ∧
  decode Config.endWordDefault 0xE0611088#32 = .ok (.sra 3#5 1#5 2#5) ∧
  decode Config.endWordDefault 0xBC21FFFF#32 = .ok (.sfnei 1#5 0xFFFF#16) ∧
  decode Config.endWordDefault 0x9041FFFC#32 = .ok (.lbs 2#5 1#5 0xFFFC#16) ∧
  decode Config.endWordDefault 0xD4001100#32 = .ok (.sw 0x100#16 0#5 2#5) ∧
  decode Config.endWordDefault 0xD3E117FC#32 = .ok (.sd 0xFFFC#16 1#5 2#5) ∧
  decode Config.endWordDefault 0x13FFFFFC#32 = .ok (.bf 0x3FFFFFC#26) ∧
  decode Config.endWordDefault 0x44001800#32 = .ok (.jr 3#5) ∧
  decode Config.endWordDefault 0x20000001#32 = .ok (.sys 1#16) ∧
  decode Config.endWordDefault 0xDDFFCCFF#32 = .ok .endOfTest

/-- The immediate of every recognised word, by the type of its instruction and the two overrides (R90 to R97, R102). -/
def Obligations.ImmediatesByType : Prop :=
  ∀ (m : Mnemonic) (w : Word),
    (m = .adrp → (getImmediate m w).toInt = signedField 21 (w.toNat % 2 ^ 21)) ∧
    (m = .movhi → (getImmediate m w).toNat = w.toNat % 2 ^ 16) ∧
    (m ≠ .adrp → m ≠ .movhi → instrType m ∈ [.typeI, .typeF, .noType, .typeR] →
      (getImmediate m w).toInt = signedField 16 (w.toNat % 2 ^ 16)) ∧
    (instrType m = .typeSH → (getImmediate m w).toInt = signedField 6 (w.toNat % 2 ^ 6)) ∧
    (instrType m = .typeJ → (getImmediate m w).toInt = signedField 26 (w.toNat % 2 ^ 26)) ∧
    (instrType m = .typeS →
      (getImmediate m w).toInt = signedField 16 (w.toNat / 2 ^ 21 % 2 ^ 5 * 2 ^ 11 + w.toNat % 2 ^ 11))

/-! ### The ALU and the control signals -/

/-- Addition and subtraction wrap modulo 2^32 for either reading of the operands, `AND` and `OR` are bitwise, and no instruction
selects `AND` (R121, R122, R123, R124). -/
def Obligations.AluArithmeticAndLogic : Prop :=
  (∀ a b : Word, (aluEval .add a b).toNat = (a.toNat + b.toNat) % 2 ^ 32 ∧
    (aluEval .add a b).toInt = (a.toInt + b.toInt).bmod (2 ^ 32)) ∧
  (∀ a b : Word, ((aluEval .sub a b).toNat : Int) = ((a.toNat : Int) - b.toNat) % 2 ^ 32) ∧
  (∀ (a b : Word) (k : Nat), (aluEval .and a b).getLsbD k = (a.getLsbD k && b.getLsbD k)) ∧
  (∀ (a b : Word) (k : Nat), (aluEval .or a b).getLsbD k = (a.getLsbD k || b.getLsbD k)) ∧
  (∀ m : Mnemonic, aluOpOf m ≠ .and)

/-- The two shifts for every amount: zeros come in on the left shift, 0 from 32 on; the right shift is the floor of the signed
quotient, and from 32 on what 31 gives. The ordered comparisons are on the signed readings (R125, R126, R130, R131, which follow the
spec's decisions D14 and D15). The jump tag adds four times `b` (R127). -/
def Obligations.AluShiftsAndSignedComparisons : Prop :=
  ∀ a b : Word,
    (aluEval .sll a b).toNat = (if b.toNat < 32 then a.toNat * 2 ^ b.toNat % 2 ^ 32 else 0) ∧
    (aluEval .sra a b).toInt = (if b.toNat < 32 then a.toInt / 2 ^ b.toNat else a.toInt / 2 ^ 31) ∧
    aluEval .ge a b = (if b.toInt ≤ a.toInt then 1#32 else 0#32) ∧
    aluEval .le a b = (if a.toInt ≤ b.toInt then 1#32 else 0#32) ∧
    (aluEval .jump a b).toNat = (a.toNat + b.toNat * 4 % 2 ^ 32) % 2 ^ 32

/-- The two equality comparisons give 1 or 0 and `NOP` gives 0 (R128, R129, R133); `MOVHI` passes `b`. -/
def Obligations.AluEqualityAndConstants : Prop :=
  ∀ a b : Word,
    aluEval .eq a b = (if a = b then 1#32 else 0#32) ∧
    aluEval .neq a b = (if a ≠ b then 1#32 else 0#32) ∧
    aluEval .movhi a b = b ∧
    aluEval .nop a b = 0#32

/-- Which instructions load, which store, how many bytes each moves, and which loads extend the sign (R142, R144, R145). -/
def Obligations.MemoryControlSignals : Prop :=
  ∀ m : Mnemonic,
    ((controlBundle m).memMode = .load ↔ m ∈ [.lbz, .lbs, .lhz, .lhs, .lwz, .lws, .ld, .lwa, .lf]) ∧
    ((controlBundle m).memMode = .store ↔ m ∈ [.sb, .sh, .sw, .sd, .swa]) ∧
    ((controlBundle m).memMode = .noAccess ↔
      m ∉ [.lbz, .lbs, .lhz, .lhs, .lwz, .lws, .ld, .lwa, .lf, .sb, .sh, .sw, .sd, .swa]) ∧
    ((controlBundle m).size = if m ∈ [.ld, .sd] then 8 else if m ∈ [.lwz, .lws, .lwa, .sw, .swa] then 4 else 1) ∧
    ((controlBundle m).sext = true ↔ m = .lws ∨ m = .lbs)

/-! ### Reset and the step -/

/-- What reset leaves, whatever the parameters and the memory behind the bus: every cell at its value of R40, every latch invalid with
every field 0, memory as it was, and the parameters as chosen; the host's reset is that over the memory there is (R381). The machine the
host's interface starts is the non-pipelined one with the default `END_WORD` and `BUS` (log entries 1, 2 and 3); that the zero of a
mnemonic or a selector is the member that does nothing is log entry 10. -/
def Obligations.ResetValues : Prop :=
  (∀ (p : Bool) (e : Word) (b : Config.Bus) (m : Memory) (s : State), s = State.resetWith p e b m →
    s.pc = 0#32 ∧ s.npc = 0#32 ∧ s.ds = 0 ∧ s.flag = false ∧ (∀ i, s.readReg i = 0#32) ∧
    s.ifid = { valid := false, fields := .zero } ∧ s.idex = { valid := false, fields := .zero } ∧
    s.exm = { valid := false, fields := .zero } ∧ s.mwb = { valid := false, fields := .zero } ∧ s.cursor = 0 ∧
    s.status = .running ∧ s.fetchDone = false ∧ s.nIssued = 0 ∧ s.nRetired = 0 ∧ s.nCycles = 0 ∧
    s.mem = m ∧ s.pipelined = p ∧ s.endWord = e ∧ s.bus = b) ∧
  (∀ (s : State) (p : Bool) (e : Word) (b : Config.Bus), s.hostReset p e b = State.resetWith p e b s.mem) ∧
  State.reset = State.resetWith false Config.endWordDefault Config.busDefault []

/-- A step of a running non-pipelined core between two instructions runs the instruction that the word at the fetch address decodes
to, in the state that fetch leaves: `PC` at the instruction itself, the delay-slot protocol applied, nothing else changed
(R315, R316, R345; the convention on `PC` is log entry 16). -/
def Obligations.StepRunsDecodedInstruction : Prop :=
  ∀ (s : State) (w : Word) (i : Instr),
    s.status = .running → s.pipelined = false → s.cursor = 0 → s.fetchDone = false →
    s.busWord s.fetchAddress = some w → decode s.endWord w = .ok i →
    step s = exec i { s with pc := s.fetchAddress, ds := if s.ds = 1 then 2 else 0 }

/-- A fetch that the bus refuses stops the core with the fetch address, and a fetched word that is no instruction stops it with its
address and itself (R361, R362); with the default bus a fetch is refused exactly at an address that is no multiple of 4 (R60). -/
def Obligations.FetchAndDecodeFaults : Prop :=
  (∀ s : State, s.status = .running → s.pipelined = false → s.cursor = 0 → s.fetchDone = false →
    s.busWord s.fetchAddress = none → step s = .fault (.instructionFetchFailure s.fetchAddress)) ∧
  (∀ (s : State) (w : Word) (r : Reject), s.status = .running → s.pipelined = false → s.cursor = 0 → s.fetchDone = false →
    s.busWord s.fetchAddress = some w → decode s.endWord w = .error r →
    step s = .fault (.illegalInstruction s.fetchAddress w)) ∧
  (∀ (s : State) (a : Word), s.bus = Config.busDefault → (s.busWord a = none ↔ a.toNat % 4 ≠ 0))

/-- A core that is not running takes no step and no cycle (R340, R360). The form of the answer, the same state at `Ended` and the same
reason at `Faulted`, is the model's reading (log entry 6). -/
def Obligations.StoppedCoreStays : Prop :=
  (∀ s : State, s.status = .ended → step s = .next s ∧ cycle s = .next s) ∧
  (∀ (s : State) (r : Fault), s.status = .faulted r → step s = .fault r ∧ cycle s = .fault r)

/-- No step and no cycle of any state is refused: every instruction has its meaning. -/
def Obligations.NothingIsRefused : Prop :=
  ∀ (s : State) (r : Refusal), step s ≠ .refused r ∧ cycle s ≠ .refused r

/-! ### Instructions: result, completion and frame -/

/-- `l.addi` adds and `l.ori` ors the sign-extended immediate; nothing but the destination changes (R171, R172). -/
def Obligations.ImmediateArithmetic : Prop :=
  ∀ (d a : RegIdx) (i : BitVec 16) (s : State),
    (∃ t, exec (.addi d a i) s = .next t ∧ OnlyWritesRegister d (s.readReg a + i.signExtend 32) s t) ∧
    (∃ t, exec (.ori d a i) s = .next t ∧ OnlyWritesRegister d (s.readReg a ||| i.signExtend 32) s t)

/-- `l.slli` and `l.srai` shift by the immediate modulo 16, `l.movhi` puts the immediate in the high half (R173, R175, R179). -/
def Obligations.ShiftImmediateAndMoveHigh : Prop :=
  ∀ (d a : RegIdx) (l : BitVec 6) (k : BitVec 16) (s : State),
    (∃ t, exec (.slli d a l) s = .next t ∧ OnlyWritesRegister d (s.readReg a <<< (l.toNat % 16)) s t) ∧
    (∃ t, exec (.srai d a l) s = .next t ∧ OnlyWritesRegister d ((s.readReg a).sshiftRight (l.toNat % 16)) s t) ∧
    (∃ t, exec (.movhi d k) s = .next t ∧ OnlyWritesRegister d (k ++ 0#16) s t)

/-- The five implemented instructions of the ADD family (R181 to R185). -/
def Obligations.RegisterArithmetic : Prop :=
  ∀ (d a b : RegIdx) (s : State),
    (∃ t, exec (.add d a b) s = .next t ∧ OnlyWritesRegister d (s.readReg a + s.readReg b) s t) ∧
    (∃ t, exec (.sub d a b) s = .next t ∧ OnlyWritesRegister d (s.readReg a - s.readReg b) s t) ∧
    (∃ t, exec (.or d a b) s = .next t ∧ OnlyWritesRegister d (s.readReg a ||| s.readReg b) s t) ∧
    (∃ t, exec (.sll d a b) s = .next t ∧ OnlyWritesRegister d (s.readReg a <<< ((s.readReg b).toNat % 16)) s t) ∧
    (∃ t, exec (.sra d a b) s = .next t ∧
      OnlyWritesRegister d ((s.readReg a).sshiftRight ((s.readReg b).toNat % 16)) s t)

/-- The nineteen stubs of the write allow-list write 0 to their destination and do nothing else (R137, R174, R176, R180, R186 to R201). -/
def Obligations.StubsWriteZero : Prop :=
  ∀ (d a b : RegIdx) (l : BitVec 6) (s : State) (i : Instr),
    i ∈ [.srli d a l, .rori d a l, .macrc d, .and d a b, .xor d a b, .cmov d a b, .ff1 d a, .srl d a b, .ror d a b,
      .exths d a, .extbs d a, .exthz d a, .extbz d a, .extws d a, .extwz d a, .mul d a b, .div d a b, .divu d a b,
      .mulu d a b] →
    ∃ t, exec i s = .next t ∧ OnlyWritesRegister d 0#32 s t

/-- The eight implemented compares write `FLAG` and nothing else; the ordered ones compare the signed readings (R210 to R218). -/
def Obligations.Compares : Prop :=
  ∀ (a b : RegIdx) (i : BitVec 16) (s : State),
    (∃ t, exec (.sfeq a b) s = .next t ∧ OnlyWritesFlag (decide (s.readReg a = s.readReg b)) s t) ∧
    (∃ t, exec (.sfne a b) s = .next t ∧ OnlyWritesFlag (decide (s.readReg a ≠ s.readReg b)) s t) ∧
    (∃ t, exec (.sfges a b) s = .next t ∧ OnlyWritesFlag (decide ((s.readReg b).toInt ≤ (s.readReg a).toInt)) s t) ∧
    (∃ t, exec (.sfles a b) s = .next t ∧ OnlyWritesFlag (decide ((s.readReg a).toInt ≤ (s.readReg b).toInt)) s t) ∧
    (∃ t, exec (.sfeqi a i) s = .next t ∧ OnlyWritesFlag (decide (s.readReg a = i.signExtend 32)) s t) ∧
    (∃ t, exec (.sfnei a i) s = .next t ∧ OnlyWritesFlag (decide (s.readReg a ≠ i.signExtend 32)) s t) ∧
    (∃ t, exec (.sfgesi a i) s = .next t ∧ OnlyWritesFlag (decide (i.toInt ≤ (s.readReg a).toInt)) s t) ∧
    (∃ t, exec (.sflesi a i) s = .next t ∧ OnlyWritesFlag (decide ((s.readReg a).toInt ≤ i.toInt)) s t)

/-- The twelve stub compares complete and change nothing, `FLAG` included (R219 to R231). -/
def Obligations.StubComparesChangeNothing : Prop :=
  ∀ (a b : RegIdx) (k : BitVec 16) (s : State) (i : Instr),
    i ∈ [.sfgtu a b, .sfgeu a b, .sfltu a b, .sfleu a b, .sfgts a b, .sflts a b, .sfgtui a k, .sfgeui a k, .sfltui a k,
      .sfleui a k, .sfgtsi a k, .sfltsi a k] →
    ∃ t, exec i s = .next t ∧ ChangesNothing s t

/-- The effective address of every load and store is the base plus the sign-extended displacement modulo 2^32 (R240). -/
def Obligations.EffectiveAddressWraps : Prop :=
  ∀ (a : RegIdx) (i : BitVec 16) (s : State),
    ((s.effectiveAddress a i).toNat : Int) = ((s.readReg a).toNat + i.toInt) % 2 ^ 32

/-- `l.lwz`, `l.lws` and `l.lwa` load the big-endian word the bus answers at the effective address (R241 to R244). -/
def Obligations.WordLoads : Prop :=
  ∀ (d a : RegIdx) (i : BitVec 16) (s : State) (x : Instr) (w : Word),
    x ∈ [.lwz d a i, .lws d a i, .lwa d a i] → s.busWord (s.effectiveAddress a i) = some w →
    ∃ t, exec x s = .next t ∧ OnlyWritesRegister d w s t

/-- `l.lbz`, `l.lhz`, `l.lhs` and `l.lf` load one byte, zero-extended; `l.lbs` loads one byte, sign-extended (R245 to R249). -/
def Obligations.ByteLoads : Prop :=
  ∀ (d a : RegIdx) (i : BitVec 16) (s : State) (v : Byte), s.busByte (s.effectiveAddress a i) = some v →
    (∀ x : Instr, x ∈ [.lbz d a i, .lhz d a i, .lhs d a i, .lf d a i] →
      ∃ t, exec x s = .next t ∧ OnlyWritesRegister d (v.setWidth 32) s t) ∧
    (∃ t, exec (.lbs d a i) s = .next t ∧ OnlyWritesRegister d (v.signExtend 32) s t)

/-- `l.ld` reads eight bytes and keeps the low word, that of the last four (R256). -/
def Obligations.DoubleLoad : Prop :=
  ∀ (d a : RegIdx) (i : BitVec 16) (s : State) (w : Word), s.busLowWord (s.effectiveAddress a i) = some w →
    ∃ t, exec (.ld d a i) s = .next t ∧ OnlyWritesRegister d w s t

/-- `l.sw` and `l.swa` write the register's four bytes, `l.sb` and `l.sh` its lowest byte, most significant byte at the effective address;
no register and no flag changes. Memory is what the bus answers to that one write; on RAM the bytes are stored and no other byte
changes (R250 to R254, R55). -/
def Obligations.WordAndByteStores : Prop :=
  ∀ (a b : RegIdx) (i : BitVec 16) (s : State) (x : Instr) (bytes : List Byte),
    (x ∈ [.sw i a b, .swa i a b] ∧
        bytes = [(s.readReg b).extractLsb' 24 8, (s.readReg b).extractLsb' 16 8, (s.readReg b).extractLsb' 8 8,
          (s.readReg b).extractLsb' 0 8]) ∨
      (x ∈ [.sb i a b, .sh i a b] ∧ bytes = [(s.readReg b).extractLsb' 0 8]) →
    (∀ m, busWrite s.bus s.mem (s.effectiveAddress a i).toNat bytes = some m →
      ∃ t, exec x s = .next t ∧ OnlyReplacesMemory m s t) ∧
    (∀ r, s.bus = .ram r → Memory.wf s.mem = true → ramAcceptsWrite r (s.effectiveAddress a i).toNat bytes.length = true →
      ∃ t, exec x s = .next t ∧ OnlyStores (s.effectiveAddress a i).toNat bytes s t)

/-- `l.sd` writes four zero bytes and then the register's four bytes, in one write of eight (R255). -/
def Obligations.DoubleStore : Prop :=
  ∀ (a b : RegIdx) (i : BitVec 16) (s : State) (bytes : List Byte),
    bytes = [0#8, 0#8, 0#8, 0#8, (s.readReg b).extractLsb' 24 8, (s.readReg b).extractLsb' 16 8,
      (s.readReg b).extractLsb' 8 8, (s.readReg b).extractLsb' 0 8] →
    (∀ m, busWrite s.bus s.mem (s.effectiveAddress a i).toNat bytes = some m →
      ∃ t, exec (.sd i a b) s = .next t ∧ OnlyReplacesMemory m s t) ∧
    (∀ r, s.bus = .ram r → Memory.wf s.mem = true → ramAcceptsWrite r (s.effectiveAddress a i).toNat 8 = true →
      ∃ t, exec (.sd i a b) s = .next t ∧ OnlyStores (s.effectiveAddress a i).toNat bytes s t)

/-- A load or store whose request the bus refuses stops the core with the effective address (R364); with the default bus a request of
`n` bytes is refused exactly when the address is no multiple of `n`, so one-byte requests never are (R59). -/
def Obligations.RefusedRequestFaults : Prop :=
  (∀ (d a b : RegIdx) (i : BitVec 16) (s : State),
    (s.busWord (s.effectiveAddress a i) = none → ∀ x : Instr,
      x ∈ [.lwz d a i, .lws d a i, .lwa d a i] → exec x s = .fault (.dataAccessFailure (s.effectiveAddress a i))) ∧
    (s.busByte (s.effectiveAddress a i) = none → ∀ x : Instr,
      x ∈ [.lbz d a i, .lbs d a i, .lhz d a i, .lhs d a i, .lf d a i] →
        exec x s = .fault (.dataAccessFailure (s.effectiveAddress a i))) ∧
    (s.busLowWord (s.effectiveAddress a i) = none → exec (.ld d a i) s = .fault (.dataAccessFailure (s.effectiveAddress a i))) ∧
    (busWrite s.bus s.mem (s.effectiveAddress a i).toNat (bytesOfWord (s.readReg b)) = none → ∀ x : Instr,
      x ∈ [.sw i a b, .swa i a b] → exec x s = .fault (.dataAccessFailure (s.effectiveAddress a i))) ∧
    (busWrite s.bus s.mem (s.effectiveAddress a i).toNat [(s.readReg b).extractLsb' 0 8] = none → ∀ x : Instr,
      x ∈ [.sb i a b, .sh i a b] → exec x s = .fault (.dataAccessFailure (s.effectiveAddress a i))) ∧
    (busWrite s.bus s.mem (s.effectiveAddress a i).toNat ([0#8, 0#8, 0#8, 0#8] ++ bytesOfWord (s.readReg b)) = none →
      exec (.sd i a b) s = .fault (.dataAccessFailure (s.effectiveAddress a i)))) ∧
  (∀ (m : Memory) (a : Word) (bytes : List Byte), bytes.length ∈ [1, 4, 8] →
    (busRead Config.busDefault m a.toNat bytes.length = none ↔ a.toNat % bytes.length ≠ 0) ∧
    (busWrite Config.busDefault m a.toNat bytes = none ↔ a.toNat % bytes.length ≠ 0))

/-- `l.j` transfers to its own address plus four times the displacement; `l.jal` does too and writes its own address plus 8 to r9 (R271,
R272). -/
def Obligations.Jumps : Prop :=
  ∀ (n : BitVec 26) (s : State),
    (∃ t, exec (.j n) s = .next t ∧ OnlyTransfers (s.pc + n.signExtend 32 <<< 2) s t) ∧
    (∃ t, exec (.jal n) s = .next t ∧ t.readReg 9#5 = s.pc + 8#32 ∧ SameRegistersBut 9#5 s t ∧
      t.npc = s.pc + n.signExtend 32 <<< 2 ∧ t.ds = (if s.pipelined then 2 else 1) ∧
      t.flag = s.flag ∧ SameMemory s t ∧ SameControl s t ∧ Completed s t)

/-- `l.bf` transfers when `FLAG` is 1 and `l.bnf` when it is 0; not taken, they only complete (R273, R274). -/
def Obligations.Branches : Prop :=
  ∀ (n : BitVec 26) (s : State),
    (s.flag = true →
      (∃ t, exec (.bf n) s = .next t ∧ OnlyTransfers (s.pc + n.signExtend 32 <<< 2) s t) ∧
      (∃ t, exec (.bnf n) s = .next t ∧ ChangesNothing s t)) ∧
    (s.flag = false →
      (∃ t, exec (.bnf n) s = .next t ∧ OnlyTransfers (s.pc + n.signExtend 32 <<< 2) s t) ∧
      (∃ t, exec (.bf n) s = .next t ∧ ChangesNothing s t))

/-- `l.jr` transfers to its own address plus r9 whatever its field says, `l.jalr` to its own address plus the register it names, and
neither writes a register (R275, R276). -/
def Obligations.RegisterJumps : Prop :=
  ∀ (b : RegIdx) (s : State),
    (∃ t, exec (.jr b) s = .next t ∧ OnlyTransfers (s.pc + s.readReg 9#5) s t) ∧
    (∃ t, exec (.jalr b) s = .next t ∧ OnlyTransfers (s.pc + s.readReg b) s t)

/-- The no-op, the synchronisation words, `l.sys`, `l.trap` and `l.adrp` complete and change nothing (R290 to R296). -/
def Obligations.NoEffectInstructions : Prop :=
  ∀ (d : RegIdx) (k : BitVec 16) (n : BitVec 21) (s : State) (i : Instr),
    i ∈ [.nop k, .msync, .psync, .csync, .sys k, .trap k, .adrp d n] → ∃ t, exec i s = .next t ∧ ChangesNothing s t

/-- The end-of-test word ends the run: `status` and `fetch_done` say so, `PC` stays, nothing is counted as issued or retired, and no
register, byte of memory, `FLAG`, `NPC`, `DS` or parameter changes (R297, R363). -/
def Obligations.EndOfTestEnds : Prop :=
  ∀ s : State, ∃ t, exec .endOfTest s = .next t ∧ t.status = .ended ∧ t.fetchDone = true ∧ t.pc = s.pc ∧
    SameRegisters s t ∧ SameMemory s t ∧ t.flag = s.flag ∧ SameTransfer s t ∧
    t.nIssued = s.nIssued ∧ t.nRetired = s.nRetired ∧
    t.pipelined = s.pipelined ∧ t.endWord = s.endWord ∧ t.bus = s.bus

/-- The memory instructions with the same effect (R257): whole outcomes are equal, and no instruction has size 2. -/
def Obligations.SameEffectMemoryInstructions : Prop :=
  (∀ (d a : RegIdx) (i : BitVec 16) (s : State),
    exec (.lwz d a i) s = exec (.lws d a i) s ∧ exec (.lwz d a i) s = exec (.lwa d a i) s ∧
    exec (.lbz d a i) s = exec (.lhz d a i) s ∧ exec (.lbz d a i) s = exec (.lhs d a i) s ∧
    exec (.lbz d a i) s = exec (.lf d a i) s) ∧
  (∀ (a b : RegIdx) (i : BitVec 16) (s : State),
    exec (.sw i a b) s = exec (.swa i a b) s ∧ exec (.sb i a b) s = exec (.sh i a b) s) ∧
  (∀ m : Mnemonic, (controlBundle m).size ≠ 2)

/-- Over all instructions: only the eight compares write `FLAG` (R29, R232), only the five stores write memory (R50), only the six transfers
write `NPC` and `DS` (R27), and only `END` stops the core. -/
def Obligations.OnlyTheNamedInstructionsWrite : Prop :=
  ∀ (i : Instr) (s t : State), exec i s = .next t →
    (i.mnemonic ∉ [.sfeq, .sfne, .sfges, .sfles, .sfeqi, .sfnei, .sfgesi, .sflesi] → t.flag = s.flag) ∧
    (i.mnemonic ∉ [.sw, .swa, .sb, .sh, .sd] → t.mem = s.mem) ∧
    (i.mnemonic ∉ [.j, .jal, .bf, .bnf, .jr, .jalr] → t.npc = s.npc ∧ t.ds = s.ds) ∧
    (i ≠ .endOfTest → t.status = s.status ∧ t.fetchDone = s.fetchDone) ∧
    t.pipelined = s.pipelined ∧ t.endWord = s.endWord ∧ t.bus = s.bus

/-- At the instruction level the latches and the cursor are left as they are, and an instruction counts five cycles, the end-of-test
word one (R346, R392). That the latches are left alone is the model's choice (log entry 8), the count is read from R346 (log entry 9). -/
def Obligations.ExecLeavesLatchesAndCountsCycles : Prop :=
  ∀ (i : Instr) (s t : State), exec i s = .next t →
    t.ifid = s.ifid ∧ t.idex = s.idex ∧ t.exm = s.exm ∧ t.mwb = s.mwb ∧ t.cursor = s.cursor ∧
    t.nCycles = s.nCycles + (if i = .endOfTest then 1 else 5)

/-- Every instruction but the two register jumps keeps `PC` and `NPC` multiples of 4 (R60, R280). -/
def Obligations.AlignmentKept : Prop :=
  ∀ (i : Instr) (s t : State), i.mnemonic ∉ [.jr, .jalr] → s.pc.toNat % 4 = 0 → s.npc.toNat % 4 = 0 →
    exec i s = .next t → t.pc.toNat % 4 = 0 ∧ t.npc.toNat % 4 = 0

/-! ### Memory -/

/-- Through the data adapter onto RAM, a read of `n` bytes after an accepted write of `n` bytes at the same address answers the low `8n` bits
written, and every other address reads as before (R54, R55, R56). -/
def Obligations.WriteThenRead : Prop :=
  ∀ (s : State) (r : Config.Ram) (addr : Word) (n : Nat) (v : BitVec 64) (m : Memory),
    s.bus = .ram r → Memory.wf s.mem = true → s.memWrite addr n v = .ok m →
    State.memRead { s with mem := m } addr n = .ok (BitVec.ofNat 64 (v.toNat % 2 ^ (8 * n))) ∧
    (∀ k, k < n → Memory.read m (addr.toNat + k) = BitVec.ofNat 8 (v.toNat / 2 ^ (8 * (n - 1 - k)))) ∧
    (∀ a, a < addr.toNat ∨ addr.toNat + n ≤ a → Memory.read m a = Memory.read s.mem a) ∧
    Memory.wf m = true

/-- Two memories in canonical form that read alike at every address are the same list. The list and its canonical form (strictly rising
addresses, only bytes that differ from 0) are the model's own way to hold the bytes behind the bus, not a rule of the spec (log entry 4). -/
def Obligations.CanonicalMemoryIsUnique : Prop :=
  ∀ m m' : Memory, Memory.wf m = true → Memory.wf m' = true → (∀ a, Memory.read m a = Memory.read m' a) → m = m'

/-- On RAM a load after a store to the same effective address gives what was stored: the word through `l.sw` and `l.lwz`, the register through
`l.sd` and `l.ld`, the byte through `l.sb` and `l.lbz` or `l.lbs` (R256, R258, R389). -/
def Obligations.LoadAfterStore : Prop :=
  ∀ (a b c d : RegIdx) (i j : BitVec 16) (r : Config.Ram) (s t : State), s.bus = .ram r → Memory.wf s.mem = true →
    t.effectiveAddress c j = s.effectiveAddress a i →
    (exec (.sw i a b) s = .next t →
      ∃ u, exec (.lwz d c j) t = .next u ∧ u.readReg d = if d = 0#5 then 0#32 else s.readReg b) ∧
    (exec (.sd i a b) s = .next t →
      ∃ u, exec (.ld d c j) t = .next u ∧ u.readReg d = if d = 0#5 then 0#32 else s.readReg b) ∧
    (exec (.sb i a b) s = .next t →
      (∃ u, exec (.lbz d c j) t = .next u ∧
        u.readReg d = if d = 0#5 then 0#32 else ((s.readReg b).setWidth 8).setWidth 32) ∧
      (∃ u, exec (.lbs d c j) t = .next u ∧
        u.readReg d = if d = 0#5 then 0#32 else ((s.readReg b).setWidth 8).signExtend 32))

/-! ### The invariant -/

/-- The reset state has the invariant, whatever the parameters, over any memory in canonical form; and the host's set-up of a program
through the bus (R383) leaves a start state with the invariant, at the entry point and under the parameters it was given, each register
but r0 with the last value it was given, and r0 and every register it was given none for with 0. -/
def Obligations.ResetHasInvariant : Prop :=
  (∀ (p : Bool) (e : Word) (b : Config.Bus) (m : Memory), Memory.wf m = true → Inv (State.resetWith p e b m)) ∧
  (∀ (s t : State) (p : Bool) (e : Word) (b : Config.Bus) (image : List (Nat × List Byte)) (values : List (RegIdx × Word))
    (entry : Word), Memory.wf s.mem = true → s.hostSetUp p e b image values entry = some t →
    StartState t ∧ Inv t ∧ t.pc = entry ∧ t.pipelined = p ∧ t.endWord = e ∧ t.bus = b ∧
    (∀ earlier i v later, values = earlier ++ (i, v) :: later → (∀ w, (i, w) ∉ later) → i ≠ 0#5 → t.readReg i = v) ∧
    (∀ i, i = 0#5 ∨ (∀ v, (i, v) ∉ values) → t.readReg i = 0#32))

/-- The machine's invariant is kept by every step from every state that has it. Tier 3. -/
def Obligations.InvariantKeptByStep : Prop :=
  ∀ s t : State, Inv s → step s = .next t → Inv t

/-- The machine's invariant is kept by every clock cycle, in both modes, from every state that has it. Tier 3. -/
def Obligations.InvariantKeptByCycle : Prop :=
  ∀ s t : State, Inv s → cycle s = .next t → Inv t

/-- From a running state with the invariant neither a step nor a cycle meets `InvalidConfiguration`: no program can raise it (R53, R149,
R365). -/
def Obligations.InvalidConfigurationIsUnreachable : Prop :=
  ∀ (s : State) (what : Misuse), Inv s → s.status = .running →
    step s ≠ .fault (.invalidConfiguration what) ∧ cycle s ≠ .fault (.invalidConfiguration what)

/-! ### The two levels of the non-pipelined core -/

/-- Five consecutive cycles equal one instruction step on everything the host may observe, the cycle that fetches `END_WORD` equals the
final step, and a step that faults faults within its five cycles with the same reason (R346). Tier 3. -/
def Obligations.FiveCyclesAreOneStep : Prop :=
  ∀ s : State, s.status = .running → s.pipelined = false → s.cursor = 0 → s.fetchDone = false →
    (∀ t, step s = .next t → t.status = .running →
      ∃ u, cycles 5 s = .next u ∧ u.observe = t.observe ∧ u.cursor = 0 ∧ u.fetchDone = false ∧
        u.pipelined = false ∧ u.endWord = s.endWord ∧ u.bus = s.bus) ∧
    (∀ t, step s = .next t → t.status = .ended →
      ∃ u, cycle s = .next u ∧ u.observe = t.observe ∧ u.fetchDone = true) ∧
    (∀ r, step s = .fault r → cycles 5 s = .fault r)

/-- A whole non-pipelined run agrees at the two levels: if some number of instruction steps ends the run, some number of clock cycles
ends it in a state the host observes as the same (R346, R385). Tier 3. -/
def Obligations.WholeRunsAgree : Prop :=
  ∀ (s t : State) (k : Nat), StartState s → s.pipelined = false →
    Host.Core.run Sys2Proof.core k s = .next t → t.status = .ended →
    ∃ u, EndsIn s u ∧ u.observe = t.observe

/-! ### The pipelined core -/

/-- In a pipelined cycle every instruction in the latches moves on by exactly one latch and carries its bundle along, and the counters count
the one that was decoded and the one that was retired (R341). -/
def Obligations.PipelinedLatchesAdvance : Prop :=
  ∀ s t : State, s.status = .running → s.pipelined = true → cycle s = .next t →
    t.idex.out.map (fun l => l.pc) = s.ifid.out.map (fun l => l.pc) ∧
    t.exm.out.map (fun l => (l.pc, l.instr, l.ctl, l.rs2Val, l.rd, l.link)) =
      s.idex.out.map (fun l => (l.pc, l.instr, l.ctl, l.rs2Val, l.rd, l.link)) ∧
    t.mwb.out.map (fun l => (l.pc, l.instr, l.ctl, l.aluOut, l.rd, l.link)) =
      s.exm.out.map (fun l => (l.pc, l.instr, l.ctl, l.aluOut, l.rd, l.link)) ∧
    t.nIssued = s.nIssued + s.ifid.valid.toNat ∧ t.nRetired = s.nRetired + s.mwb.valid.toNat ∧
    t.nCycles = s.nCycles + 1

/-- What decode puts into ID/EX, in both modes: the resolved instruction with its bundle, immediate, destination and link, and the two registers
read as they stand before any write of the same cycle: the old value, also of the register that write-back writes then (R21, R319, R320,
R322, R386). -/
def Obligations.DecodeReadsOldRegisters : Prop :=
  ∀ (s t : State) (l : IfId), s.status = .running → (s.pipelined = false → s.cursor = 1) → cycle s = .next t →
    s.ifid.out = some l →
    ∃ m o, resolve s.endWord l.iw = .ok m ∧ t.idex.out = some o ∧ o.pc = l.pc ∧ o.instr = m ∧ o.ctl = controlBundle m ∧
      o.rs1Val = s.readReg (fieldA l.iw) ∧ o.rs2Val = s.readReg (if m = .jr then 9#5 else fieldB l.iw) ∧
      o.imm = getImmediate m l.iw ∧ o.rd = (if m = .jal then 9#5 else fieldD l.iw) ∧
      o.link = (if m = .jal then l.pc + 8#32 else 0#32)

/-- The life of one instruction in the pipelined core. Take the instruction in IF/ID, and let its meaning run on the registers and `FLAG`
as they stand when it is decoded and on the memory as it stands two cycles later. Then `FLAG` and `NPC` are as that meaning leaves them one
cycle after the start (so the very next decode sees them), memory three cycles after, and its destination register four cycles after: the
hazard distances of R386 to R389. Tier 3. -/
def Obligations.PipelinedInstructionHasItsMeaning : Prop :=
  ∀ (s s1 s2 s3 s4 : State) (l : IfId) (i : Instr),
    Inv s → s.status = .running → s.pipelined = true → s.ifid.out = some l → decode s.endWord l.iw = .ok i →
    cycle s = .next s1 → cycle s1 = .next s2 → cycle s2 = .next s3 → cycle s3 = .next s4 →
    ∃ x, exec i { s with pc := l.pc, mem := s2.mem } = .next x ∧
      s1.flag = x.flag ∧ s1.npc = x.npc ∧
      (transferTaken i.mnemonic s.flag = true → s1.ds = 2) ∧
      s3.mem = x.mem ∧
      (wbOutOf i.mnemonic = .write →
        s4.readReg (destinationIndex i.mnemonic l.iw) = x.readReg (destinationIndex i.mnemonic l.iw))

/-- A taken transfer in the pipelined core has one delay slot: the cycle that decodes it fetches the slot, at `pc + 4` unless a redirect was
already due, and the next cycle fetches at the target, where `PC` goes on; unless the slot is itself a taken transfer, no redirect is then
due and the fetch after the target's is at the target plus 4 (R270, R277, R279, R348). -/
def Obligations.PipelinedDelaySlot : Prop :=
  ∀ (s t u : State) (l : IfId) (m : Mnemonic),
    Inv s → s.status = .running → s.pipelined = true → s.ifid.out = some l → resolve s.endWord l.iw = .ok m →
    transferTaken m s.flag = true → cycle s = .next t → t.fetchDone = false → cycle t = .next u → u.fetchDone = false →
    (∃ slot, t.ifid.out = some slot ∧ slot.pc = s.fetchAddress ∧
      ∃ k, resolve t.endWord slot.iw = .ok k ∧
        (transferTaken k t.flag = false → u.ds = 0 ∧ u.fetchAddress = t.npc + 4#32) ∧
        (transferTaken k t.flag = true → u.ds = 2)) ∧
    (s.ds ≠ 2 → s.fetchAddress = l.pc + 4#32) ∧
    t.ds = 2 ∧
    (∃ first, u.ifid.out = some first ∧ first.pc = t.npc ∧ u.pc = t.npc + 4#32) ∧
    t.npc = l.pc + displacement m (getImmediate m l.iw) (s.readReg (secondReadIndex m l.iw))

/-- The stream of the non-pipelined core: after a taken transfer the next step fetches at the next address; a step in the delay slot that
does not itself transfer is followed by a fetch at `NPC`, and that one by the address after it (R277, R279, R315, R348). -/
def Obligations.NonPipelinedDelaySlot : Prop :=
  ∀ (s t : State) (w : Word) (i : Instr),
    s.status = .running → s.pipelined = false → s.cursor = 0 → s.fetchDone = false →
    s.busWord s.fetchAddress = some w → decode s.endWord w = .ok i → i ≠ .endOfTest → step s = .next t →
    (transferTaken i.mnemonic s.flag = true → t.ds = 1 ∧ t.fetchAddress = s.fetchAddress + 4#32) ∧
    (transferTaken i.mnemonic s.flag = false →
      (s.ds = 1 → t.ds = 2 ∧ t.fetchAddress = s.npc) ∧
      (s.ds = 2 → t.ds = 0 ∧ s.fetchAddress = s.npc ∧ t.fetchAddress = s.npc + 4#32) ∧
      (s.ds = 0 → t.ds = 0 ∧ t.fetchAddress = s.pc + 4#32))

/-- In pipelined mode a fetch reads memory as it stood when the cycle began, whatever a store commits at the end of the same cycle (R68,
R316). -/
def Obligations.FetchReadsMemoryBeforeTheStore : Prop :=
  ∀ (s t : State) (l : IfId), s.status = .running → s.pipelined = true → cycle s = .next t → t.ifid.out = some l →
    l.pc = s.fetchAddress ∧ s.busWord s.fetchAddress = some l.iw ∧ l.iw ≠ s.endWord ∧ t.pc = s.fetchAddress + 4#32

/-- Who writes what in a cycle, in both modes: `FLAG` and `NPC` only decode, memory only the memory stage, the registers only write-back and
at most the one it names, `PC` only fetch, `DS` only fetch and then a taken transfer in decode; no cycle changes a parameter (R22, R30,
R315, R318, R334 to R336, R343). -/
def Obligations.StageWriters : Prop :=
  ∀ s t : State, cycle s = .next t →
    ((s.pipelined = true → s.ifid.valid = false) → (s.pipelined = false → s.cursor ≠ 1) → t.flag = s.flag ∧ t.npc = s.npc) ∧
    ((s.pipelined = true → s.exm.valid = false) → (s.pipelined = false → s.cursor ≠ 3) → t.mem = s.mem) ∧
    ((s.pipelined = true → s.mwb.valid = false) → (s.pipelined = false → s.cursor ≠ 4) → SameRegisters s t) ∧
    (∀ l, s.status = .running → s.mwb.out = some l → (s.pipelined = false → s.cursor = 4) →
      (writeEnabled l = false → SameRegisters s t) ∧
      (writeEnabled l = true → SameRegistersBut (writeBackIndex l) s t ∧
        t.readReg (writeBackIndex l) = if writeBackIndex l = 0#5 then 0#32 else writeBackValue l)) ∧
    (s.pipelined = false → s.cursor ≠ 0 → t.pc = s.pc) ∧
    (s.pipelined = false → s.cursor ≠ 0 → s.cursor ≠ 1 → t.ds = s.ds) ∧
    (s.status = .running → (s.pipelined = true ∨ s.cursor = 0) →
      t.pc = if s.fetchDone then s.pc else if t.fetchDone then s.fetchAddress else s.fetchAddress + 4#32) ∧
    (s.status = .running → s.pipelined = false → s.cursor = 0 →
      t.ds = if s.fetchDone then s.ds else if s.ds = 1 then 2 else 0) ∧
    (s.status = .running → (s.pipelined = true ∨ s.cursor = 1) →
      (∀ l m, s.ifid.out = some l → resolve s.endWord l.iw = .ok m → transferTaken m s.flag = true →
        t.ds = if s.pipelined then 2 else 1) ∧
      ((∀ l m, s.ifid.out = some l → resolve s.endWord l.iw = .ok m → transferTaken m s.flag = false) →
        t.npc = s.npc ∧
        t.ds = if s.pipelined = false ∨ s.fetchDone = true then s.ds else if s.ds = 1 then 2 else 0)) ∧
    t.pipelined = s.pipelined ∧ t.endWord = s.endWord ∧ t.bus = s.bus

/-- When a running core ends: in the cycle after which fetch has read `END_WORD` and, in pipelined mode, every latch is a bubble; the cycle
that reads it leaves `PC` at its address and latches nothing (R297, R317, R344, R363). -/
def Obligations.Termination : Prop :=
  ∀ s t : State, s.status = .running → cycle s = .next t →
    (t.status = .ended ↔ t.fetchDone = true ∧ (s.pipelined = true → t.drained = true)) ∧
    (t.status = .running ∨ t.status = .ended) ∧
    (s.fetchDone = false → t.fetchDone = true →
      t.pc = s.fetchAddress ∧ s.busWord s.fetchAddress = some s.endWord ∧ t.ifid.valid = false) ∧
    (s.fetchDone = true → t.fetchDone = true)

/-- The order in which a pipelined cycle meets terminal conditions: a refused fetch first, then an illegal word in decode, then a refused
data access (R341, R361, R362, R364, R367). -/
def Obligations.PipelinedFaultOrder : Prop :=
  ∀ s : State, Inv s → s.status = .running → s.pipelined = true →
    (s.fetchDone = false → s.busWord s.fetchAddress = none → cycle s = .fault (.instructionFetchFailure s.fetchAddress)) ∧
    ((s.fetchDone = true ∨ (s.busWord s.fetchAddress).isSome = true) →
      (∀ l r, s.ifid.out = some l → resolve s.endWord l.iw = .error r →
        cycle s = .fault (.illegalInstruction l.pc l.iw)) ∧
      ((∀ l, s.ifid.out = some l → ∃ m, resolve s.endWord l.iw = .ok m) → ∀ x, s.exm.out = some x →
        (x.ctl.memMode = .load → busRead s.bus s.mem x.aluOut.toNat x.ctl.size = none →
          cycle s = .fault (.dataAccessFailure x.aluOut)) ∧
        (x.ctl.memMode = .store →
          busWrite s.bus s.mem x.aluOut.toNat (toBigEndian x.ctl.size (x.rs2Val.setWidth 64)) = none →
          cycle s = .fault (.dataAccessFailure x.aluOut))))

/-- The counters at the start of a pipelined run, for every entry point: nothing is issued in the first cycle and nothing retired in the first
four; the first instruction is issued in the second cycle and retired in the fifth (R349). -/
def Obligations.FirstCycleCounters : Prop :=
  ∀ (s t : State) (k : Nat), StartState s → s.pipelined = true → cycles k s = .next t →
    (k ≤ 1 → t.nIssued = 0) ∧ (k ≤ 4 → t.nRetired = 0) ∧
    (∀ u, cycle s = .next u → u.fetchDone = false →
      (k = 2 → t.nIssued = 1) ∧ (k = 5 → t.nRetired = 1))

/-- The pipelined core stands after `n` cycles of a run where R341 puts it: the timing invariant holds of every start state and is kept by every
cycle. Tier 3. -/
def Obligations.PipelineTimingKept : Prop :=
  (∀ s : State, StartState s → PipelineTiming s) ∧
  (∀ s t : State, s.pipelined = true → PipelineTiming s → cycle s = .next t → PipelineTiming t)

/-- Cycle counts of a run that ends after `N` instructions: `5N + 1` non-pipelined; `N + 4` pipelined, 1 if `N` is 0 (R392). Tier 3. -/
def Obligations.CycleCounts : Prop :=
  ∀ s t : State, StartState s → EndsIn s t →
    t.nIssued = t.nRetired ∧
    (s.pipelined = false → t.nCycles = 5 * t.nRetired + 1) ∧
    (s.pipelined = true → t.nCycles = if t.nRetired = 0 then 1 else t.nRetired + 4)

/-! ### The bus -/

/-- What a bus answers. Any bus: a read gives as many bytes as were asked for, and a write leaves memory in the model's canonical form (log
entry 4). RAM: an accepted read gives the bytes that memory holds. The default bus: a request succeeds exactly when it is aligned and
inside the space (R52). -/
def Obligations.BusAnswers : Prop :=
  (∀ (b : Config.Bus) (m : Memory) (a n : Nat) (bytes : List Byte), busRead b m a n = some bytes → bytes.length = n) ∧
  (∀ (b : Config.Bus) (m m' : Memory) (a : Nat) (bytes : List Byte), Memory.wf m = true →
    busWrite b m a bytes = some m' → Memory.wf m' = true) ∧
  (∀ (r : Config.Ram) (s : State) (a : Word), s.bus = .ram r →
    s.busWord a = (if ramAcceptsRead r a.toNat 4 then some (wordAt s.mem a.toNat) else none) ∧
    s.busByte a = (if ramAcceptsRead r a.toNat 1 then some (Memory.read s.mem a.toNat) else none) ∧
    s.busLowWord a = (if ramAcceptsRead r a.toNat 8 then some (wordAt s.mem (a.toNat + 4)) else none)) ∧
  (∀ (m : Memory) (a n : Nat) (bytes : List Byte),
    ((busRead Config.busDefault m a n).isSome = true ↔ a % n = 0 ∧ a + n ≤ 2 ^ 32) ∧
    ((busWrite Config.busDefault m a bytes).isSome = true ↔ a % bytes.length = 0 ∧ a + bytes.length ≤ 2 ^ 32))
end

