-- ==== Sys2Proof/Laws/Memory.lean ====
section
/-! SUPPORT. Memory: reading after writing, and the canonical form that every memory operation keeps. -/

namespace Sys2Proof.Machine

/-! ### One byte -/

/-- Below the first listed address everything reads as unlisted. -/
theorem read_of_wfFrom_lt (m : Memory) (low a : Nat) (h : Memory.wfFrom low m = true) (ha : a < low) :
    Memory.read m a = unlistedByte := by
  induction m generalizing low with
  | nil => rfl
  | cons c rest ih =>
    obtain ⟨k, v⟩ := c
    simp only [Memory.wfFrom, Bool.and_eq_true, decide_eq_true_eq] at h
    have hne : k ≠ a := by omega
    simp only [Memory.read, if_neg hne]
    exact ih (k + 1) h.2 (by omega)

/-- A lower bound on the listed addresses may be weakened. -/
theorem wfFrom_mono (m : Memory) (low low' : Nat) (hl : low' ≤ low) (h : Memory.wfFrom low m = true) :
    Memory.wfFrom low' m = true := by
  cases m with
  | nil => rfl
  | cons c rest =>
    obtain ⟨k, v⟩ := c
    simp only [Memory.wfFrom, Bool.and_eq_true, decide_eq_true_eq] at h ⊢
    exact ⟨⟨⟨by omega, h.1.1.2⟩, h.1.2⟩, h.2⟩

/-- A byte reads as it was written. -/
theorem read_write_self (m : Memory) (low a : Nat) (v : Byte) (h : Memory.wfFrom low m = true) :
    Memory.read (Memory.write m a v) a = v := by
  induction m generalizing low with
  | nil =>
    simp only [Memory.write]
    split
    · next hv => rw [hv]; rfl
    · simp [Memory.read]
  | cons c rest ih =>
    obtain ⟨k, u⟩ := c
    simp only [Memory.wfFrom, Bool.and_eq_true, decide_eq_true_eq] at h
    simp only [Memory.write]
    split
    · next hk =>
      split
      · next hv =>
        have hne : k ≠ a := by omega
        simp only [Memory.read, if_neg hne, hv]
        exact read_of_wfFrom_lt rest (k + 1) a h.2 (by omega)
      · simp [Memory.read]
    · split
      · next hk he =>
        split
        · next hv => rw [hv]; exact read_of_wfFrom_lt rest (k + 1) a h.2 (by omega)
        · simp [Memory.read]
      · next hk he =>
        have hne : k ≠ a := fun e => he e.symm
        simp only [Memory.read, if_neg hne]
        exact ih (k + 1) h.2

/-- A write leaves every other address alone. -/
theorem read_write_other (m : Memory) (a b : Nat) (v : Byte) (hab : b ≠ a) :
    Memory.read (Memory.write m a v) b = Memory.read m b := by
  induction m with
  | nil =>
    simp only [Memory.write]
    split
    · rfl
    · simp [Memory.read, Ne.symm hab]
  | cons c rest ih =>
    obtain ⟨k, u⟩ := c
    simp only [Memory.write]
    split
    · split
      · rfl
      · simp [Memory.read, Ne.symm hab]
    · split
      · next hk he =>
        split
        · simp [Memory.read, ← he, Ne.symm hab]
        · simp [Memory.read, ← he, Ne.symm hab]
      · simp only [Memory.read, ih]

/-- A write inside the address space keeps the canonical form above any bound below it. -/
theorem wfFrom_write (m : Memory) (low a : Nat) (v : Byte) (h : Memory.wfFrom low m = true) (hl : low ≤ a)
    (ha : a < Config.addressSpace) : Memory.wfFrom low (Memory.write m a v) = true := by
  induction m generalizing low with
  | nil =>
    simp only [Memory.write]
    split
    · rfl
    · next hv => simp [Memory.wfFrom, hl, ha, hv]
  | cons c rest ih =>
    obtain ⟨k, u⟩ := c
    have hc := h
    simp only [Memory.wfFrom, Bool.and_eq_true, decide_eq_true_eq, bne_iff_ne] at h
    obtain ⟨⟨⟨h1, h2⟩, h3⟩, h4⟩ := h
    simp only [Memory.write]
    split
    · next hk =>
      split
      · exact hc
      · next hv => simp [Memory.wfFrom, hl, ha, hv, h2, h3, h4]; omega
    · split
      · next hk he =>
        subst he
        split
        · exact wfFrom_mono rest (a + 1) low (by omega) h4
        · next hv => simp [Memory.wfFrom, hl, ha, hv, h4]
      · next hk he =>
        simp only [Memory.wfFrom, Bool.and_eq_true, decide_eq_true_eq, bne_iff_ne]
        exact ⟨⟨⟨h1, h2⟩, h3⟩, ih (k + 1) h4 (by omega)⟩

/-- A write inside the address space keeps the canonical form. -/
theorem wf_write (m : Memory) (a : Nat) (v : Byte) (h : m.wf = true) (ha : a < Config.addressSpace) :
    Memory.wf (Memory.write m a v) = true := wfFrom_write m 0 a v h (Nat.zero_le a) ha

/-! ### Runs of bytes -/

@[simp] theorem readBytes_length (m : Memory) (a n : Nat) : (Memory.readBytes m a n).length = n := by
  induction n generalizing a with
  | zero => rfl
  | succ n ih => simp [Memory.readBytes, ih]

@[simp] theorem toBigEndian_length (n : Nat) (v : BitVec 64) : (toBigEndian n v).length = n := by
  induction n with
  | zero => rfl
  | succ n ih => simp [toBigEndian, ih]

/-- Bytes written inside the address space keep the canonical form. -/
theorem wf_writeBytes (m : Memory) (a : Nat) (bytes : List Byte) (h : m.wf = true)
    (ha : a + bytes.length ≤ Config.addressSpace) : Memory.wf (Memory.writeBytes m a bytes) = true := by
  induction bytes generalizing m a with
  | nil => exact h
  | cons b rest ih =>
    simp only [List.length_cons] at ha
    exact ih (Memory.write m a b) (a + 1) (wf_write m a b h (by omega)) (by omega)

/-- Bytes written from `a` upward leave every address outside them alone. -/
theorem read_writeBytes_other (m : Memory) (a b : Nat) (bytes : List Byte) (h : b < a ∨ a + bytes.length ≤ b) :
    Memory.read (Memory.writeBytes m a bytes) b = Memory.read m b := by
  induction bytes generalizing m a with
  | nil => rfl
  | cons c rest ih =>
    simp only [List.length_cons] at h
    simp only [Memory.writeBytes]
    rw [ih (Memory.write m a c) (a + 1) (by omega)]
    exact read_write_other m a b c (by omega)

/-- Reading back the bytes just written gives them. -/
theorem readBytes_writeBytes (m : Memory) (a : Nat) (bytes : List Byte) (h : m.wf = true)
    (ha : a + bytes.length ≤ Config.addressSpace) :
    Memory.readBytes (Memory.writeBytes m a bytes) a bytes.length = bytes := by
  induction bytes generalizing m a with
  | nil => rfl
  | cons b rest ih =>
    simp only [List.length_cons] at ha
    simp only [Memory.writeBytes, List.length_cons, Memory.readBytes]
    rw [ih (Memory.write m a b) (a + 1) (wf_write m a b h (by omega)) (by omega),
      read_writeBytes_other _ (a + 1) a rest (by omega), read_write_self m 0 a b h]

/-- Bytes written at addresses of the space keep the canonical form. -/
theorem wf_writeCells (m : Memory) (cells : List (Word × Byte)) (h : m.wf = true) : Memory.wf (Memory.writeCells m cells) = true := by
  induction cells generalizing m with
  | nil => exact h
  | cons c rest ih => exact ih _ (wf_write m c.1.toNat c.2 h c.1.isLt)

/-- The memory of the reset state has the canonical form. -/
theorem wf_reset : State.reset.mem.wf = true := rfl

/-! ### Byte order -/

/-- A word's bytes read back as the word (20_memory.md R57). -/
theorem wordOfBytes_bytesOfWord (w : Word) :
    wordOfBytes (w.extractLsb' 24 8) (w.extractLsb' 16 8) (w.extractLsb' 8 8) (w.extractLsb' 0 8) = w := by
  apply BitVec.eq_of_getLsbD_eq
  intro j hj
  simp only [wordOfBytes, BitVec.getLsbD_append]
  interval_cases j <;> simp

/-- Four bytes in big-endian order as the 64-bit number the data adapter answers (20_memory.md R54). -/
theorem ofBigEndian_four (b0 b1 b2 b3 : Byte) :
    (ofBigEndian 0#64 [b0, b1, b2, b3]).setWidth 32 = wordOfBytes b0 b1 b2 b3 := by
  apply BitVec.eq_of_getLsbD_eq
  intro j hj
  simp only [ofBigEndian, wordOfBytes, BitVec.getLsbD_append]
  interval_cases j <;> simp

/-- One byte as the 64-bit number the data adapter answers. -/
theorem ofBigEndian_one (b : Byte) : ofBigEndian 0#64 [b] = b.setWidth 64 := by
  simp [ofBigEndian]

/-- The low word of eight bytes in big-endian order is that of the last four (43_load_store.md R256). -/
theorem ofBigEndian_eight (b0 b1 b2 b3 b4 b5 b6 b7 : Byte) :
    (ofBigEndian 0#64 [b0, b1, b2, b3, b4, b5, b6, b7]).setWidth 32 = wordOfBytes b4 b5 b6 b7 := by
  apply BitVec.eq_of_getLsbD_eq
  intro j hj
  simp only [ofBigEndian, wordOfBytes, BitVec.getLsbD_append]
  interval_cases j <;> simp

/-- A byte of a register is that byte of its 64-bit extension. -/
theorem extractLsb'_setWidth (v : Word) (k : Nat) (hk : k ≤ 24) : (v.setWidth 64).extractLsb' k 8 = v.extractLsb' k 8 := by
  apply BitVec.eq_of_getLsbD_eq
  intro j hj
  have : k + j < 64 := by omega
  simp [this]

/-- The bytes of a register stored as a word (20_memory.md R55). -/
theorem toBigEndian_four (v : Word) : toBigEndian 4 (v.setWidth 64) = bytesOfWord v := by
  simp [toBigEndian, bytesOfWord, extractLsb'_setWidth]

/-- The byte of a register stored by a byte store (20_memory.md R55). -/
theorem toBigEndian_one (v : Word) : toBigEndian 1 (v.setWidth 64) = [v.extractLsb' 0 8] := by
  simp [toBigEndian, extractLsb'_setWidth]

/-- The bytes of a register stored as a double word: four zeros, then the word (43_load_store.md R255). -/
theorem toBigEndian_eight (v : Word) :
    toBigEndian 8 (v.setWidth 64) = [0#8, 0#8, 0#8, 0#8] ++ bytesOfWord v := by
  have high : ∀ k, 32 ≤ k → (v.setWidth 64).extractLsb' k 8 = 0#8 := by
    intro k hk
    apply BitVec.eq_of_getLsbD_eq
    intro j hj
    have : 32 ≤ k + j := by omega
    simp [this]
  simp [toBigEndian, bytesOfWord, extractLsb'_setWidth, high]

end Sys2Proof.Machine
end

