-- ==== Sys2Proof/Laws/State.lean ====
section
/-! SUPPORT. One lemma per field per update of `State`, so that no proof unfolds a record update. -/

namespace Sys2Proof.Machine

/-! ### `setFlag` -/

@[simp] theorem setFlag_regs (s : State) (f : Bool) : (s.setFlag f).regs = s.regs := rfl
@[simp] theorem setFlag_pc (s : State) (f : Bool) : (s.setFlag f).pc = s.pc := rfl
@[simp] theorem setFlag_npc (s : State) (f : Bool) : (s.setFlag f).npc = s.npc := rfl
@[simp] theorem setFlag_ds (s : State) (f : Bool) : (s.setFlag f).ds = s.ds := rfl
@[simp] theorem setFlag_flag (s : State) (f : Bool) : (s.setFlag f).flag = f := rfl
@[simp] theorem setFlag_ifid (s : State) (f : Bool) : (s.setFlag f).ifid = s.ifid := rfl
@[simp] theorem setFlag_idex (s : State) (f : Bool) : (s.setFlag f).idex = s.idex := rfl
@[simp] theorem setFlag_exm (s : State) (f : Bool) : (s.setFlag f).exm = s.exm := rfl
@[simp] theorem setFlag_mwb (s : State) (f : Bool) : (s.setFlag f).mwb = s.mwb := rfl
@[simp] theorem setFlag_cursor (s : State) (f : Bool) : (s.setFlag f).cursor = s.cursor := rfl
@[simp] theorem setFlag_status (s : State) (f : Bool) : (s.setFlag f).status = s.status := rfl
@[simp] theorem setFlag_fetchDone (s : State) (f : Bool) : (s.setFlag f).fetchDone = s.fetchDone := rfl
@[simp] theorem setFlag_nIssued (s : State) (f : Bool) : (s.setFlag f).nIssued = s.nIssued := rfl
@[simp] theorem setFlag_nRetired (s : State) (f : Bool) : (s.setFlag f).nRetired = s.nRetired := rfl
@[simp] theorem setFlag_nCycles (s : State) (f : Bool) : (s.setFlag f).nCycles = s.nCycles := rfl
@[simp] theorem setFlag_mem (s : State) (f : Bool) : (s.setFlag f).mem = s.mem := rfl
@[simp] theorem setFlag_pipelined (s : State) (f : Bool) : (s.setFlag f).pipelined = s.pipelined := rfl
@[simp] theorem setFlag_endWord (s : State) (f : Bool) : (s.setFlag f).endWord = s.endWord := rfl
@[simp] theorem setFlag_bus (s : State) (f : Bool) : (s.setFlag f).bus = s.bus := rfl

/-! ### `transfer` -/

@[simp] theorem transfer_regs (s : State) (t : Word) : (s.transfer t).regs = s.regs := rfl
@[simp] theorem transfer_pc (s : State) (t : Word) : (s.transfer t).pc = s.pc := rfl
@[simp] theorem transfer_npc (s : State) (t : Word) : (s.transfer t).npc = t := rfl
@[simp] theorem transfer_ds (s : State) (t : Word) : (s.transfer t).ds = (if s.pipelined then 2 else 1) := rfl
@[simp] theorem transfer_flag (s : State) (t : Word) : (s.transfer t).flag = s.flag := rfl
@[simp] theorem transfer_ifid (s : State) (t : Word) : (s.transfer t).ifid = s.ifid := rfl
@[simp] theorem transfer_idex (s : State) (t : Word) : (s.transfer t).idex = s.idex := rfl
@[simp] theorem transfer_exm (s : State) (t : Word) : (s.transfer t).exm = s.exm := rfl
@[simp] theorem transfer_mwb (s : State) (t : Word) : (s.transfer t).mwb = s.mwb := rfl
@[simp] theorem transfer_cursor (s : State) (t : Word) : (s.transfer t).cursor = s.cursor := rfl
@[simp] theorem transfer_status (s : State) (t : Word) : (s.transfer t).status = s.status := rfl
@[simp] theorem transfer_fetchDone (s : State) (t : Word) : (s.transfer t).fetchDone = s.fetchDone := rfl
@[simp] theorem transfer_nIssued (s : State) (t : Word) : (s.transfer t).nIssued = s.nIssued := rfl
@[simp] theorem transfer_nRetired (s : State) (t : Word) : (s.transfer t).nRetired = s.nRetired := rfl
@[simp] theorem transfer_nCycles (s : State) (t : Word) : (s.transfer t).nCycles = s.nCycles := rfl
@[simp] theorem transfer_mem (s : State) (t : Word) : (s.transfer t).mem = s.mem := rfl
@[simp] theorem transfer_pipelined (s : State) (t : Word) : (s.transfer t).pipelined = s.pipelined := rfl
@[simp] theorem transfer_endWord (s : State) (t : Word) : (s.transfer t).endWord = s.endWord := rfl
@[simp] theorem transfer_bus (s : State) (t : Word) : (s.transfer t).bus = s.bus := rfl

/-! ### `retire` -/

@[simp] theorem retire_regs (s : State) : s.retire.regs = s.regs := rfl
@[simp] theorem retire_pc (s : State) : s.retire.pc = s.pc + 4#32 := rfl
@[simp] theorem retire_npc (s : State) : s.retire.npc = s.npc := rfl
@[simp] theorem retire_ds (s : State) : s.retire.ds = s.ds := rfl
@[simp] theorem retire_flag (s : State) : s.retire.flag = s.flag := rfl
@[simp] theorem retire_ifid (s : State) : s.retire.ifid = s.ifid := rfl
@[simp] theorem retire_idex (s : State) : s.retire.idex = s.idex := rfl
@[simp] theorem retire_exm (s : State) : s.retire.exm = s.exm := rfl
@[simp] theorem retire_mwb (s : State) : s.retire.mwb = s.mwb := rfl
@[simp] theorem retire_cursor (s : State) : s.retire.cursor = s.cursor := rfl
@[simp] theorem retire_status (s : State) : s.retire.status = s.status := rfl
@[simp] theorem retire_fetchDone (s : State) : s.retire.fetchDone = s.fetchDone := rfl
@[simp] theorem retire_nIssued (s : State) : s.retire.nIssued = s.nIssued + 1 := rfl
@[simp] theorem retire_nRetired (s : State) : s.retire.nRetired = s.nRetired + 1 := rfl
@[simp] theorem retire_nCycles (s : State) : s.retire.nCycles = s.nCycles + 5 := rfl
@[simp] theorem retire_mem (s : State) : s.retire.mem = s.mem := rfl
@[simp] theorem retire_pipelined (s : State) : s.retire.pipelined = s.pipelined := rfl
@[simp] theorem retire_endWord (s : State) : s.retire.endWord = s.endWord := rfl
@[simp] theorem retire_bus (s : State) : s.retire.bus = s.bus := rfl

/-! ### `recordFault` -/

@[simp] theorem recordFault_regs (s : State) (r : Fault) : (s.recordFault r).regs = s.regs := rfl
@[simp] theorem recordFault_pc (s : State) (r : Fault) : (s.recordFault r).pc = s.pc := rfl
@[simp] theorem recordFault_npc (s : State) (r : Fault) : (s.recordFault r).npc = s.npc := rfl
@[simp] theorem recordFault_ds (s : State) (r : Fault) : (s.recordFault r).ds = s.ds := rfl
@[simp] theorem recordFault_flag (s : State) (r : Fault) : (s.recordFault r).flag = s.flag := rfl
@[simp] theorem recordFault_ifid (s : State) (r : Fault) : (s.recordFault r).ifid = s.ifid := rfl
@[simp] theorem recordFault_idex (s : State) (r : Fault) : (s.recordFault r).idex = s.idex := rfl
@[simp] theorem recordFault_exm (s : State) (r : Fault) : (s.recordFault r).exm = s.exm := rfl
@[simp] theorem recordFault_mwb (s : State) (r : Fault) : (s.recordFault r).mwb = s.mwb := rfl
@[simp] theorem recordFault_cursor (s : State) (r : Fault) : (s.recordFault r).cursor = s.cursor := rfl
@[simp] theorem recordFault_status (s : State) (r : Fault) : (s.recordFault r).status = .faulted r := rfl
@[simp] theorem recordFault_fetchDone (s : State) (r : Fault) : (s.recordFault r).fetchDone = s.fetchDone := rfl
@[simp] theorem recordFault_nIssued (s : State) (r : Fault) : (s.recordFault r).nIssued = s.nIssued := rfl
@[simp] theorem recordFault_nRetired (s : State) (r : Fault) : (s.recordFault r).nRetired = s.nRetired := rfl
@[simp] theorem recordFault_nCycles (s : State) (r : Fault) : (s.recordFault r).nCycles = s.nCycles := rfl
@[simp] theorem recordFault_mem (s : State) (r : Fault) : (s.recordFault r).mem = s.mem := rfl
@[simp] theorem recordFault_pipelined (s : State) (r : Fault) : (s.recordFault r).pipelined = s.pipelined := rfl
@[simp] theorem recordFault_endWord (s : State) (r : Fault) : (s.recordFault r).endWord = s.endWord := rfl
@[simp] theorem recordFault_bus (s : State) (r : Fault) : (s.recordFault r).bus = s.bus := rfl

/-! ### `hostSetEntry` -/

@[simp] theorem hostSetEntry_regs (s : State) (e : Word) : (s.hostSetEntry e).regs = s.regs := rfl
@[simp] theorem hostSetEntry_pc (s : State) (e : Word) : (s.hostSetEntry e).pc = e := rfl
@[simp] theorem hostSetEntry_npc (s : State) (e : Word) : (s.hostSetEntry e).npc = s.npc := rfl
@[simp] theorem hostSetEntry_ds (s : State) (e : Word) : (s.hostSetEntry e).ds = s.ds := rfl
@[simp] theorem hostSetEntry_flag (s : State) (e : Word) : (s.hostSetEntry e).flag = s.flag := rfl
@[simp] theorem hostSetEntry_ifid (s : State) (e : Word) : (s.hostSetEntry e).ifid = s.ifid := rfl
@[simp] theorem hostSetEntry_idex (s : State) (e : Word) : (s.hostSetEntry e).idex = s.idex := rfl
@[simp] theorem hostSetEntry_exm (s : State) (e : Word) : (s.hostSetEntry e).exm = s.exm := rfl
@[simp] theorem hostSetEntry_mwb (s : State) (e : Word) : (s.hostSetEntry e).mwb = s.mwb := rfl
@[simp] theorem hostSetEntry_cursor (s : State) (e : Word) : (s.hostSetEntry e).cursor = s.cursor := rfl
@[simp] theorem hostSetEntry_status (s : State) (e : Word) : (s.hostSetEntry e).status = s.status := rfl
@[simp] theorem hostSetEntry_fetchDone (s : State) (e : Word) : (s.hostSetEntry e).fetchDone = s.fetchDone := rfl
@[simp] theorem hostSetEntry_nIssued (s : State) (e : Word) : (s.hostSetEntry e).nIssued = s.nIssued := rfl
@[simp] theorem hostSetEntry_nRetired (s : State) (e : Word) : (s.hostSetEntry e).nRetired = s.nRetired := rfl
@[simp] theorem hostSetEntry_nCycles (s : State) (e : Word) : (s.hostSetEntry e).nCycles = s.nCycles := rfl
@[simp] theorem hostSetEntry_mem (s : State) (e : Word) : (s.hostSetEntry e).mem = s.mem := rfl
@[simp] theorem hostSetEntry_pipelined (s : State) (e : Word) : (s.hostSetEntry e).pipelined = s.pipelined := rfl
@[simp] theorem hostSetEntry_endWord (s : State) (e : Word) : (s.hostSetEntry e).endWord = s.endWord := rfl
@[simp] theorem hostSetEntry_bus (s : State) (e : Word) : (s.hostSetEntry e).bus = s.bus := rfl

/-! ### `writeReg` -/

@[simp] theorem writeReg_pc (s : State) (i : RegIdx) (v : Word) : (s.writeReg i v).pc = s.pc := by unfold State.writeReg; split <;> rfl
@[simp] theorem writeReg_npc (s : State) (i : RegIdx) (v : Word) : (s.writeReg i v).npc = s.npc := by unfold State.writeReg; split <;> rfl
@[simp] theorem writeReg_ds (s : State) (i : RegIdx) (v : Word) : (s.writeReg i v).ds = s.ds := by unfold State.writeReg; split <;> rfl
@[simp] theorem writeReg_flag (s : State) (i : RegIdx) (v : Word) : (s.writeReg i v).flag = s.flag := by unfold State.writeReg; split <;> rfl
@[simp] theorem writeReg_ifid (s : State) (i : RegIdx) (v : Word) : (s.writeReg i v).ifid = s.ifid := by unfold State.writeReg; split <;> rfl
@[simp] theorem writeReg_idex (s : State) (i : RegIdx) (v : Word) : (s.writeReg i v).idex = s.idex := by unfold State.writeReg; split <;> rfl
@[simp] theorem writeReg_exm (s : State) (i : RegIdx) (v : Word) : (s.writeReg i v).exm = s.exm := by unfold State.writeReg; split <;> rfl
@[simp] theorem writeReg_mwb (s : State) (i : RegIdx) (v : Word) : (s.writeReg i v).mwb = s.mwb := by unfold State.writeReg; split <;> rfl
@[simp] theorem writeReg_cursor (s : State) (i : RegIdx) (v : Word) : (s.writeReg i v).cursor = s.cursor := by unfold State.writeReg; split <;> rfl
@[simp] theorem writeReg_status (s : State) (i : RegIdx) (v : Word) : (s.writeReg i v).status = s.status := by unfold State.writeReg; split <;> rfl
@[simp] theorem writeReg_fetchDone (s : State) (i : RegIdx) (v : Word) : (s.writeReg i v).fetchDone = s.fetchDone := by unfold State.writeReg; split <;> rfl
@[simp] theorem writeReg_nIssued (s : State) (i : RegIdx) (v : Word) : (s.writeReg i v).nIssued = s.nIssued := by unfold State.writeReg; split <;> rfl
@[simp] theorem writeReg_nRetired (s : State) (i : RegIdx) (v : Word) : (s.writeReg i v).nRetired = s.nRetired := by unfold State.writeReg; split <;> rfl
@[simp] theorem writeReg_nCycles (s : State) (i : RegIdx) (v : Word) : (s.writeReg i v).nCycles = s.nCycles := by unfold State.writeReg; split <;> rfl
@[simp] theorem writeReg_mem (s : State) (i : RegIdx) (v : Word) : (s.writeReg i v).mem = s.mem := by unfold State.writeReg; split <;> rfl
@[simp] theorem writeReg_pipelined (s : State) (i : RegIdx) (v : Word) : (s.writeReg i v).pipelined = s.pipelined := by unfold State.writeReg; split <;> rfl
@[simp] theorem writeReg_endWord (s : State) (i : RegIdx) (v : Word) : (s.writeReg i v).endWord = s.endWord := by unfold State.writeReg; split <;> rfl
@[simp] theorem writeReg_bus (s : State) (i : RegIdx) (v : Word) : (s.writeReg i v).bus = s.bus := by unfold State.writeReg; split <;> rfl

/-! ### `applyDelaySlot` -/

@[simp] theorem applyDelaySlot_regs (s : State) : s.applyDelaySlot.regs = s.regs := by
  unfold State.applyDelaySlot; split
  · rfl
  · split <;> rfl
@[simp] theorem applyDelaySlot_pc (s : State) : s.applyDelaySlot.pc = s.fetchAddress := by
  unfold State.applyDelaySlot State.fetchAddress; split
  · rfl
  · split <;> rfl
@[simp] theorem applyDelaySlot_npc (s : State) : s.applyDelaySlot.npc = s.npc := by
  unfold State.applyDelaySlot; split
  · rfl
  · split <;> rfl
@[simp] theorem applyDelaySlot_ds (s : State) : s.applyDelaySlot.ds = (if s.ds = 1 then 2 else 0) := by
  unfold State.applyDelaySlot; split
  · next h => rw [h]; rfl
  · split
    · rfl
    · next h2 h1 => exact (by omega : s.ds = 0)
@[simp] theorem applyDelaySlot_flag (s : State) : s.applyDelaySlot.flag = s.flag := by
  unfold State.applyDelaySlot; split
  · rfl
  · split <;> rfl
@[simp] theorem applyDelaySlot_ifid (s : State) : s.applyDelaySlot.ifid = s.ifid := by
  unfold State.applyDelaySlot; split
  · rfl
  · split <;> rfl
@[simp] theorem applyDelaySlot_idex (s : State) : s.applyDelaySlot.idex = s.idex := by
  unfold State.applyDelaySlot; split
  · rfl
  · split <;> rfl
@[simp] theorem applyDelaySlot_exm (s : State) : s.applyDelaySlot.exm = s.exm := by
  unfold State.applyDelaySlot; split
  · rfl
  · split <;> rfl
@[simp] theorem applyDelaySlot_mwb (s : State) : s.applyDelaySlot.mwb = s.mwb := by
  unfold State.applyDelaySlot; split
  · rfl
  · split <;> rfl
@[simp] theorem applyDelaySlot_cursor (s : State) : s.applyDelaySlot.cursor = s.cursor := by
  unfold State.applyDelaySlot; split
  · rfl
  · split <;> rfl
@[simp] theorem applyDelaySlot_status (s : State) : s.applyDelaySlot.status = s.status := by
  unfold State.applyDelaySlot; split
  · rfl
  · split <;> rfl
@[simp] theorem applyDelaySlot_fetchDone (s : State) : s.applyDelaySlot.fetchDone = s.fetchDone := by
  unfold State.applyDelaySlot; split
  · rfl
  · split <;> rfl
@[simp] theorem applyDelaySlot_nIssued (s : State) : s.applyDelaySlot.nIssued = s.nIssued := by
  unfold State.applyDelaySlot; split
  · rfl
  · split <;> rfl
@[simp] theorem applyDelaySlot_nRetired (s : State) : s.applyDelaySlot.nRetired = s.nRetired := by
  unfold State.applyDelaySlot; split
  · rfl
  · split <;> rfl
@[simp] theorem applyDelaySlot_nCycles (s : State) : s.applyDelaySlot.nCycles = s.nCycles := by
  unfold State.applyDelaySlot; split
  · rfl
  · split <;> rfl
@[simp] theorem applyDelaySlot_mem (s : State) : s.applyDelaySlot.mem = s.mem := by
  unfold State.applyDelaySlot; split
  · rfl
  · split <;> rfl
@[simp] theorem applyDelaySlot_pipelined (s : State) : s.applyDelaySlot.pipelined = s.pipelined := by
  unfold State.applyDelaySlot; split
  · rfl
  · split <;> rfl
@[simp] theorem applyDelaySlot_endWord (s : State) : s.applyDelaySlot.endWord = s.endWord := by
  unfold State.applyDelaySlot; split
  · rfl
  · split <;> rfl
@[simp] theorem applyDelaySlot_bus (s : State) : s.applyDelaySlot.bus = s.bus := by
  unfold State.applyDelaySlot; split
  · rfl
  · split <;> rfl

/-! ### `checkEnd` -/

@[simp] theorem checkEnd_regs (s : State) : s.checkEnd.regs = s.regs := by unfold State.checkEnd; split <;> rfl
@[simp] theorem checkEnd_pc (s : State) : s.checkEnd.pc = s.pc := by unfold State.checkEnd; split <;> rfl
@[simp] theorem checkEnd_npc (s : State) : s.checkEnd.npc = s.npc := by unfold State.checkEnd; split <;> rfl
@[simp] theorem checkEnd_ds (s : State) : s.checkEnd.ds = s.ds := by unfold State.checkEnd; split <;> rfl
@[simp] theorem checkEnd_flag (s : State) : s.checkEnd.flag = s.flag := by unfold State.checkEnd; split <;> rfl
@[simp] theorem checkEnd_ifid (s : State) : s.checkEnd.ifid = s.ifid := by unfold State.checkEnd; split <;> rfl
@[simp] theorem checkEnd_idex (s : State) : s.checkEnd.idex = s.idex := by unfold State.checkEnd; split <;> rfl
@[simp] theorem checkEnd_exm (s : State) : s.checkEnd.exm = s.exm := by unfold State.checkEnd; split <;> rfl
@[simp] theorem checkEnd_mwb (s : State) : s.checkEnd.mwb = s.mwb := by unfold State.checkEnd; split <;> rfl
@[simp] theorem checkEnd_cursor (s : State) : s.checkEnd.cursor = s.cursor := by unfold State.checkEnd; split <;> rfl
@[simp] theorem checkEnd_status (s : State) : s.checkEnd.status = (if s.fetchDone && (!s.pipelined || s.drained) then .ended else s.status) := by unfold State.checkEnd; split <;> rfl
@[simp] theorem checkEnd_fetchDone (s : State) : s.checkEnd.fetchDone = s.fetchDone := by unfold State.checkEnd; split <;> rfl
@[simp] theorem checkEnd_nIssued (s : State) : s.checkEnd.nIssued = s.nIssued := by unfold State.checkEnd; split <;> rfl
@[simp] theorem checkEnd_nRetired (s : State) : s.checkEnd.nRetired = s.nRetired := by unfold State.checkEnd; split <;> rfl
@[simp] theorem checkEnd_nCycles (s : State) : s.checkEnd.nCycles = s.nCycles := by unfold State.checkEnd; split <;> rfl
@[simp] theorem checkEnd_mem (s : State) : s.checkEnd.mem = s.mem := by unfold State.checkEnd; split <;> rfl
@[simp] theorem checkEnd_pipelined (s : State) : s.checkEnd.pipelined = s.pipelined := by unfold State.checkEnd; split <;> rfl
@[simp] theorem checkEnd_endWord (s : State) : s.checkEnd.endWord = s.endWord := by unfold State.checkEnd; split <;> rfl
@[simp] theorem checkEnd_bus (s : State) : s.checkEnd.bus = s.bus := by unfold State.checkEnd; split <;> rfl

/-! ### Latch registers -/

@[simp] theorem commit_out {α : Type} (zero : α) (o : Option α) : (Latch.commit zero o).out = o := by cases o <;> rfl
@[simp] theorem commit_valid {α : Type} (zero : α) (o : Option α) : (Latch.commit zero o).valid = o.isSome := by cases o <;> rfl
@[simp] theorem bubble_out {α : Type} (f : α) : (Latch.bubble f).out = none := rfl
@[simp] theorem bubble_valid {α : Type} (f : α) : (Latch.bubble f).valid = false := rfl
@[simp] theorem out_isSome {α : Type} (l : Latch α) : l.out.isSome = l.valid := by
  obtain ⟨v, f⟩ := l; cases v <;> rfl

/-- A latch shows nothing to the stage on its right exactly when it is a bubble (46_pipeline.md R310). -/
theorem out_eq_none_iff {α : Type} (l : Latch α) : l.out = none ↔ l.valid = false := by
  obtain ⟨v, f⟩ := l; cases v <;> simp [Latch.out]

/-- A latch that shows something is valid. -/
theorem valid_of_out {α : Type} (l : Latch α) (f : α) (h : l.out = some f) : l.valid = true := by
  rw [← out_isSome, h]; rfl

/-! ### `resetWith` and `reset` -/

@[simp] theorem resetWith_regs (p : Bool) (e : Word) (b : Config.Bus) (m : Memory) :
    (State.resetWith p e b m).regs = Vector.replicate 32 0#32 := rfl
@[simp] theorem resetWith_pc (p : Bool) (e : Word) (b : Config.Bus) (m : Memory) :
    (State.resetWith p e b m).pc = 0#32 := rfl
@[simp] theorem resetWith_npc (p : Bool) (e : Word) (b : Config.Bus) (m : Memory) :
    (State.resetWith p e b m).npc = 0#32 := rfl
@[simp] theorem resetWith_ds (p : Bool) (e : Word) (b : Config.Bus) (m : Memory) :
    (State.resetWith p e b m).ds = 0 := rfl
@[simp] theorem resetWith_flag (p : Bool) (e : Word) (b : Config.Bus) (m : Memory) :
    (State.resetWith p e b m).flag = false := rfl
@[simp] theorem resetWith_ifid (p : Bool) (e : Word) (b : Config.Bus) (m : Memory) :
    (State.resetWith p e b m).ifid = Latch.bubble IfId.zero := rfl
@[simp] theorem resetWith_idex (p : Bool) (e : Word) (b : Config.Bus) (m : Memory) :
    (State.resetWith p e b m).idex = Latch.bubble IdEx.zero := rfl
@[simp] theorem resetWith_exm (p : Bool) (e : Word) (b : Config.Bus) (m : Memory) :
    (State.resetWith p e b m).exm = Latch.bubble ExM.zero := rfl
@[simp] theorem resetWith_mwb (p : Bool) (e : Word) (b : Config.Bus) (m : Memory) :
    (State.resetWith p e b m).mwb = Latch.bubble MWb.zero := rfl
@[simp] theorem resetWith_cursor (p : Bool) (e : Word) (b : Config.Bus) (m : Memory) :
    (State.resetWith p e b m).cursor = 0 := rfl
@[simp] theorem resetWith_status (p : Bool) (e : Word) (b : Config.Bus) (m : Memory) :
    (State.resetWith p e b m).status = .running := rfl
@[simp] theorem resetWith_fetchDone (p : Bool) (e : Word) (b : Config.Bus) (m : Memory) :
    (State.resetWith p e b m).fetchDone = false := rfl
@[simp] theorem resetWith_nIssued (p : Bool) (e : Word) (b : Config.Bus) (m : Memory) :
    (State.resetWith p e b m).nIssued = 0 := rfl
@[simp] theorem resetWith_nRetired (p : Bool) (e : Word) (b : Config.Bus) (m : Memory) :
    (State.resetWith p e b m).nRetired = 0 := rfl
@[simp] theorem resetWith_nCycles (p : Bool) (e : Word) (b : Config.Bus) (m : Memory) :
    (State.resetWith p e b m).nCycles = 0 := rfl
@[simp] theorem resetWith_mem (p : Bool) (e : Word) (b : Config.Bus) (m : Memory) :
    (State.resetWith p e b m).mem = m := rfl
@[simp] theorem resetWith_pipelined (p : Bool) (e : Word) (b : Config.Bus) (m : Memory) :
    (State.resetWith p e b m).pipelined = p := rfl
@[simp] theorem resetWith_endWord (p : Bool) (e : Word) (b : Config.Bus) (m : Memory) :
    (State.resetWith p e b m).endWord = e := rfl
@[simp] theorem resetWith_bus (p : Bool) (e : Word) (b : Config.Bus) (m : Memory) :
    (State.resetWith p e b m).bus = b := rfl

/-! ### Registers -/

/-- Reading the register just written: r0 stays 0 (10_state.md R21, R22). -/
theorem readReg_writeReg_self (s : State) (i : RegIdx) (v : Word) :
    (s.writeReg i v).readReg i = if i = 0#5 then 0#32 else v := by
  unfold State.readReg State.writeReg
  split
  · rfl
  · simp

/-- A write leaves every other register alone (10_state.md R22). -/
theorem readReg_writeReg_other (s : State) (i j : RegIdx) (v : Word) (h : j ≠ i) :
    (s.writeReg i v).readReg j = s.readReg j := by
  have hn : i.toNat ≠ j.toNat := fun e => h (BitVec.eq_of_toNat_eq e.symm)
  unfold State.readReg State.writeReg
  split
  · rfl
  · split
    · rfl
    · exact Vector.getElem_set_ne i.isLt j.isLt hn

/-- r0 reads 0 in every state (10_state.md R21). -/
@[simp] theorem readReg_zero (s : State) : s.readReg 0#5 = 0#32 := rfl

/-- Registers are read from the register file alone. -/
theorem readReg_congr (s t : State) (h : t.regs = s.regs) (i : RegIdx) : t.readReg i = s.readReg i := by
  unfold State.readReg; rw [h]

@[simp] theorem setFlag_readReg (s : State) (f : Bool) (i : RegIdx) : (s.setFlag f).readReg i = s.readReg i := rfl
@[simp] theorem transfer_readReg (s : State) (t : Word) (i : RegIdx) : (s.transfer t).readReg i = s.readReg i := rfl
@[simp] theorem retire_readReg (s : State) (i : RegIdx) : s.retire.readReg i = s.readReg i := rfl
@[simp] theorem applyDelaySlot_readReg (s : State) (i : RegIdx) : s.applyDelaySlot.readReg i = s.readReg i :=
  readReg_congr _ _ (applyDelaySlot_regs s) i
@[simp] theorem checkEnd_readReg (s : State) (i : RegIdx) : s.checkEnd.readReg i = s.readReg i :=
  readReg_congr _ _ (checkEnd_regs s) i

/-- Every register reads 0 right after reset (10_state.md R40). -/
@[simp] theorem resetWith_readReg (p : Bool) (e : Word) (b : Config.Bus) (m : Memory) (i : RegIdx) :
    (State.resetWith p e b m).readReg i = 0#32 := by
  unfold State.readReg
  split
  · rfl
  · simp

/-! ### Delay slot -/

/-- After the protocol of one fetch the address of the fetch is `PC` itself (46_pipeline.md R315). -/
theorem applyDelaySlot_sequential (s : State) (h : s.ds = 0) : s.applyDelaySlot = s := by
  unfold State.applyDelaySlot; simp [h]

/-- Only a running core with nothing in its fetch stage's way takes `Step`. -/
theorem atInstructionBoundary_iff (s : State) :
    s.atInstructionBoundary = true ↔ s.pipelined = false ∧ s.cursor = 0 ∧ s.fetchDone = false := by
  unfold State.atInstructionBoundary; simp [and_assoc]

end Sys2Proof.Machine
end

