-- ==== Sys2Proof/Laws/Ops.lean ====
section
/-! SUPPORT. For each shared operation one lemma that says once everything it can do. -/

namespace Sys2Proof.Machine

/-! ### The bus -/

/-- A request that RAM accepts stays in the address space. -/
theorem ramAcceptsRead_bound (r : Config.Ram) (a n : Nat) (h : ramAcceptsRead r a n = true) : a + n ≤ Config.addressSpace := by
  simp only [ramAcceptsRead, Bool.and_eq_true, decide_eq_true_eq] at h
  exact h.1.1

/-- RAM accepts a write only where it accepts the read. -/
theorem ramAcceptsWrite_read (r : Config.Ram) (a n : Nat) (h : ramAcceptsWrite r a n = true) : ramAcceptsRead r a n = true := by
  simp only [ramAcceptsWrite, Bool.and_eq_true] at h
  exact h.1

/-- A write that RAM accepts stays in the address space. -/
theorem ramAcceptsWrite_bound (r : Config.Ram) (a n : Nat) (h : ramAcceptsWrite r a n = true) : a + n ≤ Config.addressSpace :=
  ramAcceptsRead_bound r a n (ramAcceptsWrite_read r a n h)

/-- What RAM answers to a read. -/
theorem busRead_ram (r : Config.Ram) (m : Memory) (a n : Nat) :
    busRead (.ram r) m a n = if ramAcceptsRead r a n then some (Memory.readBytes m a n) else none := rfl

/-- What RAM answers to a write. -/
theorem busWrite_ram (r : Config.Ram) (m : Memory) (a : Nat) (bytes : List Byte) :
    busWrite (.ram r) m a bytes = if ramAcceptsWrite r a bytes.length then some (Memory.writeBytes m a bytes) else none := rfl

/-- Every bus answers as many bytes as were asked for (20_memory.md R52). -/
theorem busRead_length (b : Config.Bus) (m : Memory) (a n : Nat) (bytes : List Byte) (h : busRead b m a n = some bytes) :
    bytes.length = n := by
  cases b with
  | ram r =>
    rw [busRead_ram] at h
    split at h
    · rw [← Option.some.inj h, readBytes_length]
    · cases h
  | external id =>
    obtain ⟨v, _, rfl⟩ := Option.map_eq_some_iff.mp h
    exact v.length_toList

/-- Every bus leaves memory in canonical form. -/
theorem busWrite_wf (b : Config.Bus) (m m' : Memory) (a : Nat) (bytes : List Byte) (h : busWrite b m a bytes = some m')
    (hw : m.wf = true) : m'.wf = true := by
  cases b with
  | ram r =>
    rw [busWrite_ram] at h
    split at h
    · next ha => rw [← Option.some.inj h]; exact wf_writeBytes _ _ _ hw (ramAcceptsWrite_bound _ _ _ ha)
    · cases h
  | external id =>
    obtain ⟨cells, _, rfl⟩ := Option.map_eq_some_iff.mp h
    exact wf_writeCells _ _ hw

/-! ### The adapters -/

/-- Everything the data adapter's read can do: the bytes the bus answers, its refusal, the size check. -/
theorem memRead_cases (s : State) (addr : Word) (n : Nat) :
    (validSize n = true ∧ ∃ bytes, busRead s.bus s.mem addr.toNat n = some bytes ∧
      s.memRead addr n = .ok (ofBigEndian 0#64 bytes)) ∨
    (validSize n = true ∧ busRead s.bus s.mem addr.toNat n = none ∧ s.memRead addr n = .error (.dataAccessFailure addr)) ∨
    (validSize n = false ∧ s.memRead addr n = .error (.invalidConfiguration (.memorySize n))) := by
  unfold State.memRead
  cases hv : validSize n <;> cases hb : busRead s.bus s.mem addr.toNat n <;> simp

/-- Everything the data adapter's write can do. -/
theorem memWrite_cases (s : State) (addr : Word) (n : Nat) (v : BitVec 64) :
    (validSize n = true ∧ ∃ m, busWrite s.bus s.mem addr.toNat (toBigEndian n v) = some m ∧ s.memWrite addr n v = .ok m) ∨
    (validSize n = true ∧ busWrite s.bus s.mem addr.toNat (toBigEndian n v) = none ∧
      s.memWrite addr n v = .error (.dataAccessFailure addr)) ∨
    (validSize n = false ∧ s.memWrite addr n v = .error (.invalidConfiguration (.memorySize n))) := by
  unfold State.memWrite
  cases hv : validSize n <;> cases hb : busWrite s.bus s.mem addr.toNat (toBigEndian n v) <;> simp

/-- If the data adapter's write answers a memory, it is the bus' answer to the bytes of the value. -/
theorem memWrite_ok (s : State) (addr : Word) (n : Nat) (v : BitVec 64) (m : Memory) (h : s.memWrite addr n v = .ok m) :
    validSize n = true ∧ busWrite s.bus s.mem addr.toNat (toBigEndian n v) = some m := by
  rcases memWrite_cases s addr n v with ⟨h1, m', h2, h3⟩ | ⟨_, _, h3⟩ | ⟨_, h3⟩
  · rw [h3] at h
    exact ⟨h1, (Except.ok.inj h) ▸ h2⟩
  · rw [h3] at h; cases h
  · rw [h3] at h; cases h

/-- An accepted write keeps the canonical form of memory. -/
theorem memWrite_wf (s : State) (addr : Word) (n : Nat) (v : BitVec 64) (m : Memory) (h : s.memWrite addr n v = .ok m)
    (hw : s.mem.wf = true) : m.wf = true := busWrite_wf _ _ _ _ _ (memWrite_ok s addr n v m h).2 hw

/-- Everything the instruction adapter can do: four bytes as a big-endian word, or the fetch failure at `PC` (46_pipeline.md R316). -/
theorem fetchWord_cases (s : State) :
    (∃ b0 b1 b2 b3, busRead s.bus s.mem s.pc.toNat 4 = some [b0, b1, b2, b3] ∧ s.fetchWord = .ok (wordOfBytes b0 b1 b2 b3)) ∨
    (busRead s.bus s.mem s.pc.toNat 4 = none ∧ s.fetchWord = .error (.instructionFetchFailure s.pc)) := by
  unfold State.fetchWord
  cases hb : busRead s.bus s.mem s.pc.toNat 4 with
  | none => exact Or.inr ⟨rfl, rfl⟩
  | some bytes =>
    match bytes, busRead_length _ _ _ _ _ hb with
    | [b0, b1, b2, b3], _ => exact Or.inl ⟨b0, b1, b2, b3, rfl, rfl⟩

/-- The fetch reads the registers `PC`, memory and the bus, nothing else. -/
theorem fetchWord_congr (s t : State) (hp : t.pc = s.pc) (hm : t.mem = s.mem) (hb : t.bus = s.bus) : t.fetchWord = s.fetchWord := by
  unfold State.fetchWord; rw [hp, hm, hb]

/-! ### The instruction forms -/

/-- What every instruction that completes leaves. -/
theorem complete_eq (s : State) : complete s = .next s.retire := rfl

/-- A register-writing form writes and completes. -/
theorem writeResult_eq (s : State) (d : RegIdx) (v : Word) : s.writeResult d v = .next (s.writeReg d v).retire := rfl

/-- A zero-writing stub writes and completes. -/
theorem writeZero_eq (s : State) (d : RegIdx) : s.writeZero d = .next (s.writeReg d 0#32).retire := rfl

/-- A register compare writes `FLAG` and completes. -/
theorem compareRegisters_eq (s : State) (tag : AluOp) (a b : RegIdx) :
    s.compareRegisters tag a b = .next (s.setFlag (compareFlag tag (s.readReg a) (s.readReg b))).retire := rfl

/-- An immediate compare writes `FLAG` and completes. -/
theorem compareImmediate_eq (s : State) (tag : AluOp) (a : RegIdx) (i : BitVec 16) :
    s.compareImmediate tag a i = .next (s.setFlag (compareFlag tag (s.readReg a) (sext i))).retire := rfl

/-- Everything a load of a valid size can do (43_load_store.md R241). -/
theorem load_cases (s : State) (d a : RegIdx) (i : BitVec 16) (n : Nat) (sx : Bool) (hn : validSize n = true) :
    (∃ bytes, busRead s.bus s.mem (s.effectiveAddress a i).toNat n = some bytes ∧
      s.load d a i n sx = .next (s.writeReg d (extendLoaded n sx (ofBigEndian 0#64 bytes))).retire) ∨
    (busRead s.bus s.mem (s.effectiveAddress a i).toNat n = none ∧
      s.load d a i n sx = .fault (.dataAccessFailure (s.effectiveAddress a i))) := by
  unfold State.load
  rcases memRead_cases s (s.effectiveAddress a i) n with ⟨_, v, h2, h3⟩ | ⟨_, h2, h3⟩ | ⟨h1, _⟩
  · exact Or.inl ⟨v, h2, by rw [h3]; rfl⟩
  · exact Or.inr ⟨h2, by rw [h3]; rfl⟩
  · rw [h1] at hn; cases hn

/-- Everything a store of a valid size can do (43_load_store.md R251). -/
theorem store_cases (s : State) (i : BitVec 16) (a b : RegIdx) (n : Nat) (hn : validSize n = true) :
    (∃ m, busWrite s.bus s.mem (s.effectiveAddress a i).toNat (toBigEndian n ((s.readReg b).setWidth 64)) = some m ∧
      s.store i a b n = .next (State.retire { s with mem := m })) ∨
    (busWrite s.bus s.mem (s.effectiveAddress a i).toNat (toBigEndian n ((s.readReg b).setWidth 64)) = none ∧
      s.store i a b n = .fault (.dataAccessFailure (s.effectiveAddress a i))) := by
  unfold State.store
  rcases memWrite_cases s (s.effectiveAddress a i) n ((s.readReg b).setWidth 64) with ⟨_, m, h2, h3⟩ | ⟨_, h2, h3⟩ | ⟨h1, _⟩
  · exact Or.inl ⟨m, h2, by rw [h3]; rfl⟩
  · exact Or.inr ⟨h2, by rw [h3]; rfl⟩
  · rw [h1] at hn; cases hn

/-- A load that answers a next state has written some value to its destination and completed. -/
theorem load_next (s t : State) (d a : RegIdx) (i : BitVec 16) (n : Nat) (sx : Bool) (h : s.load d a i n sx = .next t) :
    ∃ v, t = (s.writeReg d v).retire := by
  unfold State.load at h
  split at h
  · exact ⟨_, (Host.Outcome.next.inj h).symm⟩
  · cases h

/-- A store that answers a next state has changed memory, in canonical form if it was, and completed. -/
theorem store_next (s t : State) (i : BitVec 16) (a b : RegIdx) (n : Nat) (h : s.store i a b n = .next t) :
    ∃ m, t = State.retire { s with mem := m } ∧ (s.mem.wf = true → m.wf = true) := by
  unfold State.store at h
  split at h
  · next m hm => exact ⟨m, (Host.Outcome.next.inj h).symm, memWrite_wf _ _ _ _ _ hm⟩
  · cases h

/-! ### The host's set-up -/

/-- A write request of the host changes memory alone, to what the bus answers. -/
theorem hostWrite_cases (s : State) (a : Nat) (bytes : List Byte) :
    s.hostWrite a bytes = none ∨
      ∃ m, busWrite s.bus s.mem a bytes = some m ∧ s.hostWrite a bytes = some { s with mem := m } := by
  unfold State.hostWrite
  split
  · cases h : busWrite s.bus s.mem a bytes with
    | none => exact Or.inl rfl
    | some m => exact Or.inr ⟨m, rfl, rfl⟩
  · exact Or.inl rfl

/-- A list of write requests changes memory alone and keeps its canonical form. -/
theorem hostRequests_some (s t : State) (requests : List (Nat × List Byte)) (h : s.hostRequests requests = some t) :
    (s.mem.wf = true → t.mem.wf = true) ∧ t = { s with mem := t.mem } := by
  induction requests generalizing s with
  | nil => cases h; exact ⟨id, rfl⟩
  | cons request rest ih =>
    obtain ⟨a, bytes⟩ := request
    rcases hostWrite_cases s a bytes with hn | ⟨m, hm, hs⟩
    · simp [State.hostRequests, hn] at h
    · simp only [State.hostRequests, hs] at h
      obtain ⟨h1, h2⟩ := ih _ h
      exact ⟨fun hw => h1 (busWrite_wf _ _ _ _ _ hm hw), h2⟩

/-- Initial register values change the register file alone. -/
theorem hostSetRegisters_eq (s : State) (values : List (RegIdx × Word)) :
    s.hostSetRegisters values = { s with regs := (s.hostSetRegisters values).regs } := by
  induction values generalizing s with
  | nil => rfl
  | cons value rest ih =>
    simp only [State.hostSetRegisters]
    rw [ih]
    unfold State.hostSetRegister State.writeReg
    split <;> rfl

/-- Register values set in two lists are set in order. -/
theorem hostSetRegisters_append (s : State) (earlier later : List (RegIdx × Word)) :
    s.hostSetRegisters (earlier ++ later) = (s.hostSetRegisters earlier).hostSetRegisters later := by
  induction earlier generalizing s with
  | nil => rfl
  | cons value rest ih => exact ih _

/-- A register that is given no value reads as before. -/
theorem readReg_hostSetRegisters_other (s : State) (values : List (RegIdx × Word)) (i : RegIdx) (h : ∀ v, (i, v) ∉ values) :
    (s.hostSetRegisters values).readReg i = s.readReg i := by
  induction values generalizing s with
  | nil => rfl
  | cons value rest ih =>
    obtain ⟨j, v⟩ := value
    have hj : i ≠ j := by rintro rfl; exact h v List.mem_cons_self
    exact (ih _ fun w hw => h w (List.mem_cons_of_mem _ hw)).trans (readReg_writeReg_other s j i v hj)

/-- Reset leaves the memory behind the bus as it was (10_state.md R40, 70_reset_and_hazards.md R381). -/
@[simp] theorem hostReset_mem (s : State) (p : Bool) (e : Word) (b : Config.Bus) : (s.hostReset p e b).mem = s.mem := rfl

/-! ### The ALU -/

/-- The effective address is the sum modulo 2^32 (43_load_store.md R240). -/
theorem effectiveAddress_eq (s : State) (a : RegIdx) (i : BitVec 16) :
    s.effectiveAddress a i = s.readReg a + i.signExtend 32 := rfl

/-- A masked shift amount is the amount modulo 16 (46_pipeline.md R326). -/
theorem shiftAmount_toNat (v : Word) : (shiftAmount v).toNat = v.toNat % 16 := by
  have := Nat.and_two_pow_sub_one_eq_mod v.toNat 4
  simpa [shiftAmount, BitVec.toNat_and] using this

/-- The flag a comparison leaves is the comparison itself. -/
theorem compareFlag_bitResult (c : Bool) : (bitResult c != 0#32) = c := by cases c <;> rfl

end Sys2Proof.Machine
end

