-- ==== Sys2Proof/Laws/Bus.lean ====
section
/-! SUPPORT. What the bus' answers to a word, a byte and a double word stand for. -/

namespace Sys2Proof.Machine

/-- The bus' word is the four bytes it answers, most significant first. -/
theorem busWord_eq_some (s : State) (a w : Word) (h : s.busWord a = some w) :
    ∃ b0 b1 b2 b3, busRead s.bus s.mem a.toNat 4 = some [b0, b1, b2, b3] ∧ w = wordOfBytes b0 b1 b2 b3 := by
  unfold State.busWord at h
  split at h
  · next b0 b1 b2 b3 hb => exact ⟨b0, b1, b2, b3, hb, (Option.some.inj h).symm⟩
  · cases h

/-- The bus has no word exactly when it refuses the request: an answer has four bytes. -/
theorem busWord_eq_none (s : State) (a : Word) : s.busWord a = none ↔ busRead s.bus s.mem a.toNat 4 = none := by
  unfold State.busWord
  cases hb : busRead s.bus s.mem a.toNat 4 with
  | none => simp
  | some bytes =>
    match bytes, busRead_length _ _ _ _ _ hb with
    | [b0, b1, b2, b3], _ => simp

/-- The bus' byte is the one byte it answers. -/
theorem busByte_eq_some (s : State) (a : Word) (v : Byte) (h : s.busByte a = some v) :
    busRead s.bus s.mem a.toNat 1 = some [v] := by
  unfold State.busByte at h
  split at h
  · next b hb => rw [hb, Option.some.inj h]
  · cases h

/-- The bus has no byte exactly when it refuses the request. -/
theorem busByte_eq_none (s : State) (a : Word) : s.busByte a = none ↔ busRead s.bus s.mem a.toNat 1 = none := by
  unfold State.busByte
  cases hb : busRead s.bus s.mem a.toNat 1 with
  | none => simp
  | some bytes =>
    match bytes, busRead_length _ _ _ _ _ hb with
    | [b], _ => simp

/-- The bus' low word is the last four of the eight bytes it answers. -/
theorem busLowWord_eq_some (s : State) (a w : Word) (h : s.busLowWord a = some w) :
    ∃ b0 b1 b2 b3 b4 b5 b6 b7, busRead s.bus s.mem a.toNat 8 = some [b0, b1, b2, b3, b4, b5, b6, b7] ∧
      w = wordOfBytes b4 b5 b6 b7 := by
  unfold State.busLowWord at h
  split at h
  · next b0 b1 b2 b3 b4 b5 b6 b7 hb => exact ⟨b0, b1, b2, b3, b4, b5, b6, b7, hb, (Option.some.inj h).symm⟩
  · cases h

/-- The bus has no low word exactly when it refuses the request. -/
theorem busLowWord_eq_none (s : State) (a : Word) : s.busLowWord a = none ↔ busRead s.bus s.mem a.toNat 8 = none := by
  unfold State.busLowWord
  cases hb : busRead s.bus s.mem a.toNat 8 with
  | none => simp
  | some bytes =>
    match bytes, busRead_length _ _ _ _ _ hb with
    | [b0, b1, b2, b3, b4, b5, b6, b7], _ => simp

/-- The instruction adapter answers the bus' word at `PC`, or the fetch failure there (46_pipeline.md R316). -/
theorem fetchWord_eq_busWord (s : State) :
    s.fetchWord = match s.busWord s.pc with
      | some w => .ok w
      | none => .error (.instructionFetchFailure s.pc) := by
  unfold State.fetchWord State.busWord
  cases busRead s.bus s.mem s.pc.toNat 4 with
  | none => rfl
  | some bytes =>
    match bytes with
    | [] | [_] | [_, _] | [_, _, _] | [_, _, _, _] | _ :: _ :: _ :: _ :: _ :: _ => rfl

/-- The fetch after the delay-slot protocol reads at the fetch address (46_pipeline.md R315, R316). -/
theorem applyDelaySlot_fetchWord (s : State) :
    s.applyDelaySlot.fetchWord = match s.busWord s.fetchAddress with
      | some w => .ok w
      | none => .error (.instructionFetchFailure s.fetchAddress) := by
  rw [fetchWord_eq_busWord]
  unfold State.busWord
  simp

end Sys2Proof.Machine
end

