-- ==== Sys2Proof/Laws/Cycle.lean ====
section
/-! SUPPORT. The cycle-level machine: what each stage can answer, what each clockPulse changes, and what a cycle can do. -/

namespace Sys2Proof.Machine

/-! ### `fetchClock` -/

@[simp] theorem fetchClock_regs (s : State) (out : Option IfId) :
    (fetchClock s out).regs = s.regs := rfl
@[simp] theorem fetchClock_pc (s : State) (out : Option IfId) :
    (fetchClock s out).pc = (if out.isSome then s.pc + 4#32 else s.pc) := rfl
@[simp] theorem fetchClock_npc (s : State) (out : Option IfId) :
    (fetchClock s out).npc = s.npc := rfl
@[simp] theorem fetchClock_ds (s : State) (out : Option IfId) :
    (fetchClock s out).ds = s.ds := rfl
@[simp] theorem fetchClock_flag (s : State) (out : Option IfId) :
    (fetchClock s out).flag = s.flag := rfl
@[simp] theorem fetchClock_ifid (s : State) (out : Option IfId) :
    (fetchClock s out).ifid = Latch.commit IfId.zero out := rfl
@[simp] theorem fetchClock_idex (s : State) (out : Option IfId) :
    (fetchClock s out).idex = s.idex := rfl
@[simp] theorem fetchClock_exm (s : State) (out : Option IfId) :
    (fetchClock s out).exm = s.exm := rfl
@[simp] theorem fetchClock_mwb (s : State) (out : Option IfId) :
    (fetchClock s out).mwb = s.mwb := rfl
@[simp] theorem fetchClock_cursor (s : State) (out : Option IfId) :
    (fetchClock s out).cursor = s.cursor := rfl
@[simp] theorem fetchClock_status (s : State) (out : Option IfId) :
    (fetchClock s out).status = s.status := rfl
@[simp] theorem fetchClock_fetchDone (s : State) (out : Option IfId) :
    (fetchClock s out).fetchDone = s.fetchDone := rfl
@[simp] theorem fetchClock_nIssued (s : State) (out : Option IfId) :
    (fetchClock s out).nIssued = s.nIssued := rfl
@[simp] theorem fetchClock_nRetired (s : State) (out : Option IfId) :
    (fetchClock s out).nRetired = s.nRetired := rfl
@[simp] theorem fetchClock_nCycles (s : State) (out : Option IfId) :
    (fetchClock s out).nCycles = s.nCycles := rfl
@[simp] theorem fetchClock_mem (s : State) (out : Option IfId) :
    (fetchClock s out).mem = s.mem := rfl
@[simp] theorem fetchClock_pipelined (s : State) (out : Option IfId) :
    (fetchClock s out).pipelined = s.pipelined := rfl
@[simp] theorem fetchClock_endWord (s : State) (out : Option IfId) :
    (fetchClock s out).endWord = s.endWord := rfl
@[simp] theorem fetchClock_bus (s : State) (out : Option IfId) :
    (fetchClock s out).bus = s.bus := rfl

/-! ### `decodeClock` -/

@[simp] theorem decodeClock_regs (s : State) (out : Option DecodeOutput) :
    (decodeClock s out).regs = s.regs := by
  rcases out with _ | ⟨l, f, t⟩
  · rfl
  · cases f <;> cases t <;> rfl
@[simp] theorem decodeClock_pc (s : State) (out : Option DecodeOutput) :
    (decodeClock s out).pc = s.pc := by
  rcases out with _ | ⟨l, f, t⟩
  · rfl
  · cases f <;> cases t <;> rfl
@[simp] theorem decodeClock_npc (s : State) (out : Option DecodeOutput) :
    (decodeClock s out).npc = (out.bind (·.target)).getD s.npc := by
  rcases out with _ | ⟨l, f, t⟩
  · rfl
  · cases f <;> cases t <;> rfl
@[simp] theorem decodeClock_ds (s : State) (out : Option DecodeOutput) :
    (decodeClock s out).ds = (if (out.bind (·.target)).isSome then (if s.pipelined then 2 else 1) else s.ds) := by
  rcases out with _ | ⟨l, f, t⟩
  · rfl
  · cases f <;> cases t <;> rfl
@[simp] theorem decodeClock_flag (s : State) (out : Option DecodeOutput) :
    (decodeClock s out).flag = (out.bind (·.newFlag)).getD s.flag := by
  rcases out with _ | ⟨l, f, t⟩
  · rfl
  · cases f <;> cases t <;> rfl
@[simp] theorem decodeClock_ifid (s : State) (out : Option DecodeOutput) :
    (decodeClock s out).ifid = s.ifid := by
  rcases out with _ | ⟨l, f, t⟩
  · rfl
  · cases f <;> cases t <;> rfl
@[simp] theorem decodeClock_idex (s : State) (out : Option DecodeOutput) :
    (decodeClock s out).idex = Latch.commit IdEx.zero (out.map (·.latch)) := by
  rcases out with _ | ⟨l, f, t⟩
  · rfl
  · cases f <;> cases t <;> rfl
@[simp] theorem decodeClock_exm (s : State) (out : Option DecodeOutput) :
    (decodeClock s out).exm = s.exm := by
  rcases out with _ | ⟨l, f, t⟩
  · rfl
  · cases f <;> cases t <;> rfl
@[simp] theorem decodeClock_mwb (s : State) (out : Option DecodeOutput) :
    (decodeClock s out).mwb = s.mwb := by
  rcases out with _ | ⟨l, f, t⟩
  · rfl
  · cases f <;> cases t <;> rfl
@[simp] theorem decodeClock_cursor (s : State) (out : Option DecodeOutput) :
    (decodeClock s out).cursor = s.cursor := by
  rcases out with _ | ⟨l, f, t⟩
  · rfl
  · cases f <;> cases t <;> rfl
@[simp] theorem decodeClock_status (s : State) (out : Option DecodeOutput) :
    (decodeClock s out).status = s.status := by
  rcases out with _ | ⟨l, f, t⟩
  · rfl
  · cases f <;> cases t <;> rfl
@[simp] theorem decodeClock_fetchDone (s : State) (out : Option DecodeOutput) :
    (decodeClock s out).fetchDone = s.fetchDone := by
  rcases out with _ | ⟨l, f, t⟩
  · rfl
  · cases f <;> cases t <;> rfl
@[simp] theorem decodeClock_nIssued (s : State) (out : Option DecodeOutput) :
    (decodeClock s out).nIssued = s.nIssued + out.isSome.toNat := by
  rcases out with _ | ⟨l, f, t⟩
  · rfl
  · cases f <;> cases t <;> rfl
@[simp] theorem decodeClock_nRetired (s : State) (out : Option DecodeOutput) :
    (decodeClock s out).nRetired = s.nRetired := by
  rcases out with _ | ⟨l, f, t⟩
  · rfl
  · cases f <;> cases t <;> rfl
@[simp] theorem decodeClock_nCycles (s : State) (out : Option DecodeOutput) :
    (decodeClock s out).nCycles = s.nCycles := by
  rcases out with _ | ⟨l, f, t⟩
  · rfl
  · cases f <;> cases t <;> rfl
@[simp] theorem decodeClock_mem (s : State) (out : Option DecodeOutput) :
    (decodeClock s out).mem = s.mem := by
  rcases out with _ | ⟨l, f, t⟩
  · rfl
  · cases f <;> cases t <;> rfl
@[simp] theorem decodeClock_pipelined (s : State) (out : Option DecodeOutput) :
    (decodeClock s out).pipelined = s.pipelined := by
  rcases out with _ | ⟨l, f, t⟩
  · rfl
  · cases f <;> cases t <;> rfl
@[simp] theorem decodeClock_endWord (s : State) (out : Option DecodeOutput) :
    (decodeClock s out).endWord = s.endWord := by
  rcases out with _ | ⟨l, f, t⟩
  · rfl
  · cases f <;> cases t <;> rfl
@[simp] theorem decodeClock_bus (s : State) (out : Option DecodeOutput) :
    (decodeClock s out).bus = s.bus := by
  rcases out with _ | ⟨l, f, t⟩
  · rfl
  · cases f <;> cases t <;> rfl

/-! ### `executeClock` -/

@[simp] theorem executeClock_regs (s : State) (out : Option ExM) :
    (executeClock s out).regs = s.regs := rfl
@[simp] theorem executeClock_pc (s : State) (out : Option ExM) :
    (executeClock s out).pc = s.pc := rfl
@[simp] theorem executeClock_npc (s : State) (out : Option ExM) :
    (executeClock s out).npc = s.npc := rfl
@[simp] theorem executeClock_ds (s : State) (out : Option ExM) :
    (executeClock s out).ds = s.ds := rfl
@[simp] theorem executeClock_flag (s : State) (out : Option ExM) :
    (executeClock s out).flag = s.flag := rfl
@[simp] theorem executeClock_ifid (s : State) (out : Option ExM) :
    (executeClock s out).ifid = s.ifid := rfl
@[simp] theorem executeClock_idex (s : State) (out : Option ExM) :
    (executeClock s out).idex = s.idex := rfl
@[simp] theorem executeClock_exm (s : State) (out : Option ExM) :
    (executeClock s out).exm = Latch.commit ExM.zero out := rfl
@[simp] theorem executeClock_mwb (s : State) (out : Option ExM) :
    (executeClock s out).mwb = s.mwb := rfl
@[simp] theorem executeClock_cursor (s : State) (out : Option ExM) :
    (executeClock s out).cursor = s.cursor := rfl
@[simp] theorem executeClock_status (s : State) (out : Option ExM) :
    (executeClock s out).status = s.status := rfl
@[simp] theorem executeClock_fetchDone (s : State) (out : Option ExM) :
    (executeClock s out).fetchDone = s.fetchDone := rfl
@[simp] theorem executeClock_nIssued (s : State) (out : Option ExM) :
    (executeClock s out).nIssued = s.nIssued := rfl
@[simp] theorem executeClock_nRetired (s : State) (out : Option ExM) :
    (executeClock s out).nRetired = s.nRetired := rfl
@[simp] theorem executeClock_nCycles (s : State) (out : Option ExM) :
    (executeClock s out).nCycles = s.nCycles := rfl
@[simp] theorem executeClock_mem (s : State) (out : Option ExM) :
    (executeClock s out).mem = s.mem := rfl
@[simp] theorem executeClock_pipelined (s : State) (out : Option ExM) :
    (executeClock s out).pipelined = s.pipelined := rfl
@[simp] theorem executeClock_endWord (s : State) (out : Option ExM) :
    (executeClock s out).endWord = s.endWord := rfl
@[simp] theorem executeClock_bus (s : State) (out : Option ExM) :
    (executeClock s out).bus = s.bus := rfl

/-! ### `memoryClock` -/

@[simp] theorem memoryClock_regs (s : State) (out : Memory × Option MWb) :
    (memoryClock s out).regs = s.regs := rfl
@[simp] theorem memoryClock_pc (s : State) (out : Memory × Option MWb) :
    (memoryClock s out).pc = s.pc := rfl
@[simp] theorem memoryClock_npc (s : State) (out : Memory × Option MWb) :
    (memoryClock s out).npc = s.npc := rfl
@[simp] theorem memoryClock_ds (s : State) (out : Memory × Option MWb) :
    (memoryClock s out).ds = s.ds := rfl
@[simp] theorem memoryClock_flag (s : State) (out : Memory × Option MWb) :
    (memoryClock s out).flag = s.flag := rfl
@[simp] theorem memoryClock_ifid (s : State) (out : Memory × Option MWb) :
    (memoryClock s out).ifid = s.ifid := rfl
@[simp] theorem memoryClock_idex (s : State) (out : Memory × Option MWb) :
    (memoryClock s out).idex = s.idex := rfl
@[simp] theorem memoryClock_exm (s : State) (out : Memory × Option MWb) :
    (memoryClock s out).exm = s.exm := rfl
@[simp] theorem memoryClock_mwb (s : State) (out : Memory × Option MWb) :
    (memoryClock s out).mwb = Latch.commit MWb.zero out.2 := rfl
@[simp] theorem memoryClock_cursor (s : State) (out : Memory × Option MWb) :
    (memoryClock s out).cursor = s.cursor := rfl
@[simp] theorem memoryClock_status (s : State) (out : Memory × Option MWb) :
    (memoryClock s out).status = s.status := rfl
@[simp] theorem memoryClock_fetchDone (s : State) (out : Memory × Option MWb) :
    (memoryClock s out).fetchDone = s.fetchDone := rfl
@[simp] theorem memoryClock_nIssued (s : State) (out : Memory × Option MWb) :
    (memoryClock s out).nIssued = s.nIssued := rfl
@[simp] theorem memoryClock_nRetired (s : State) (out : Memory × Option MWb) :
    (memoryClock s out).nRetired = s.nRetired := rfl
@[simp] theorem memoryClock_nCycles (s : State) (out : Memory × Option MWb) :
    (memoryClock s out).nCycles = s.nCycles := rfl
@[simp] theorem memoryClock_mem (s : State) (out : Memory × Option MWb) :
    (memoryClock s out).mem = out.1 := rfl
@[simp] theorem memoryClock_pipelined (s : State) (out : Memory × Option MWb) :
    (memoryClock s out).pipelined = s.pipelined := rfl
@[simp] theorem memoryClock_endWord (s : State) (out : Memory × Option MWb) :
    (memoryClock s out).endWord = s.endWord := rfl
@[simp] theorem memoryClock_bus (s : State) (out : Memory × Option MWb) :
    (memoryClock s out).bus = s.bus := rfl

/-! ### `writeBackClock` -/

@[simp] theorem writeBackClock_pc (s : State) (l : Option MWb) :
    (writeBackClock s l).pc = s.pc := by
  rcases l with _ | l
  · rfl
  · simp only [writeBackClock]; split <;> first | rfl | simp
@[simp] theorem writeBackClock_npc (s : State) (l : Option MWb) :
    (writeBackClock s l).npc = s.npc := by
  rcases l with _ | l
  · rfl
  · simp only [writeBackClock]; split <;> first | rfl | simp
@[simp] theorem writeBackClock_ds (s : State) (l : Option MWb) :
    (writeBackClock s l).ds = s.ds := by
  rcases l with _ | l
  · rfl
  · simp only [writeBackClock]; split <;> first | rfl | simp
@[simp] theorem writeBackClock_flag (s : State) (l : Option MWb) :
    (writeBackClock s l).flag = s.flag := by
  rcases l with _ | l
  · rfl
  · simp only [writeBackClock]; split <;> first | rfl | simp
@[simp] theorem writeBackClock_ifid (s : State) (l : Option MWb) :
    (writeBackClock s l).ifid = s.ifid := by
  rcases l with _ | l
  · rfl
  · simp only [writeBackClock]; split <;> first | rfl | simp
@[simp] theorem writeBackClock_idex (s : State) (l : Option MWb) :
    (writeBackClock s l).idex = s.idex := by
  rcases l with _ | l
  · rfl
  · simp only [writeBackClock]; split <;> first | rfl | simp
@[simp] theorem writeBackClock_exm (s : State) (l : Option MWb) :
    (writeBackClock s l).exm = s.exm := by
  rcases l with _ | l
  · rfl
  · simp only [writeBackClock]; split <;> first | rfl | simp
@[simp] theorem writeBackClock_mwb (s : State) (l : Option MWb) :
    (writeBackClock s l).mwb = s.mwb := by
  rcases l with _ | l
  · rfl
  · simp only [writeBackClock]; split <;> first | rfl | simp
@[simp] theorem writeBackClock_cursor (s : State) (l : Option MWb) :
    (writeBackClock s l).cursor = s.cursor := by
  rcases l with _ | l
  · rfl
  · simp only [writeBackClock]; split <;> first | rfl | simp
@[simp] theorem writeBackClock_status (s : State) (l : Option MWb) :
    (writeBackClock s l).status = s.status := by
  rcases l with _ | l
  · rfl
  · simp only [writeBackClock]; split <;> first | rfl | simp
@[simp] theorem writeBackClock_fetchDone (s : State) (l : Option MWb) :
    (writeBackClock s l).fetchDone = s.fetchDone := by
  rcases l with _ | l
  · rfl
  · simp only [writeBackClock]; split <;> first | rfl | simp
@[simp] theorem writeBackClock_nIssued (s : State) (l : Option MWb) :
    (writeBackClock s l).nIssued = s.nIssued := by
  rcases l with _ | l
  · rfl
  · simp only [writeBackClock]; split <;> first | rfl | simp
@[simp] theorem writeBackClock_nRetired (s : State) (l : Option MWb) :
    (writeBackClock s l).nRetired = s.nRetired + l.isSome.toNat := by
  rcases l with _ | l
  · rfl
  · simp only [writeBackClock]; split <;> first | rfl | simp
@[simp] theorem writeBackClock_nCycles (s : State) (l : Option MWb) :
    (writeBackClock s l).nCycles = s.nCycles := by
  rcases l with _ | l
  · rfl
  · simp only [writeBackClock]; split <;> first | rfl | simp
@[simp] theorem writeBackClock_mem (s : State) (l : Option MWb) :
    (writeBackClock s l).mem = s.mem := by
  rcases l with _ | l
  · rfl
  · simp only [writeBackClock]; split <;> first | rfl | simp
@[simp] theorem writeBackClock_pipelined (s : State) (l : Option MWb) :
    (writeBackClock s l).pipelined = s.pipelined := by
  rcases l with _ | l
  · rfl
  · simp only [writeBackClock]; split <;> first | rfl | simp
@[simp] theorem writeBackClock_endWord (s : State) (l : Option MWb) :
    (writeBackClock s l).endWord = s.endWord := by
  rcases l with _ | l
  · rfl
  · simp only [writeBackClock]; split <;> first | rfl | simp
@[simp] theorem writeBackClock_bus (s : State) (l : Option MWb) :
    (writeBackClock s l).bus = s.bus := by
  rcases l with _ | l
  · rfl
  · simp only [writeBackClock]; split <;> first | rfl | simp

/-! ### `endCycle` -/

@[simp] theorem endCycle_regs (s : State) :
    s.endCycle.regs = s.regs := by unfold State.endCycle; simp
@[simp] theorem endCycle_pc (s : State) :
    s.endCycle.pc = s.pc := by unfold State.endCycle; simp
@[simp] theorem endCycle_npc (s : State) :
    s.endCycle.npc = s.npc := by unfold State.endCycle; simp
@[simp] theorem endCycle_ds (s : State) :
    s.endCycle.ds = s.ds := by unfold State.endCycle; simp
@[simp] theorem endCycle_flag (s : State) :
    s.endCycle.flag = s.flag := by unfold State.endCycle; simp
@[simp] theorem endCycle_ifid (s : State) :
    s.endCycle.ifid = s.ifid := by unfold State.endCycle; simp
@[simp] theorem endCycle_idex (s : State) :
    s.endCycle.idex = s.idex := by unfold State.endCycle; simp
@[simp] theorem endCycle_exm (s : State) :
    s.endCycle.exm = s.exm := by unfold State.endCycle; simp
@[simp] theorem endCycle_mwb (s : State) :
    s.endCycle.mwb = s.mwb := by unfold State.endCycle; simp
@[simp] theorem endCycle_cursor (s : State) :
    s.endCycle.cursor = s.cursor := by unfold State.endCycle; simp
@[simp] theorem endCycle_status (s : State) :
    s.endCycle.status = (if s.fetchDone && (!s.pipelined || s.drained) then .ended else s.status) := by unfold State.endCycle; rw [checkEnd_status]; rfl
@[simp] theorem endCycle_fetchDone (s : State) :
    s.endCycle.fetchDone = s.fetchDone := by unfold State.endCycle; simp
@[simp] theorem endCycle_nIssued (s : State) :
    s.endCycle.nIssued = s.nIssued := by unfold State.endCycle; simp
@[simp] theorem endCycle_nRetired (s : State) :
    s.endCycle.nRetired = s.nRetired := by unfold State.endCycle; simp
@[simp] theorem endCycle_nCycles (s : State) :
    s.endCycle.nCycles = s.nCycles + 1 := by unfold State.endCycle; simp
@[simp] theorem endCycle_mem (s : State) :
    s.endCycle.mem = s.mem := by unfold State.endCycle; simp
@[simp] theorem endCycle_pipelined (s : State) :
    s.endCycle.pipelined = s.pipelined := by unfold State.endCycle; simp
@[simp] theorem endCycle_endWord (s : State) :
    s.endCycle.endWord = s.endWord := by unfold State.endCycle; simp
@[simp] theorem endCycle_bus (s : State) :
    s.endCycle.bus = s.bus := by unfold State.endCycle; simp

/-! ### Registers across a cycle -/

/-- Write-back changes at most the one register it names (10_state.md R22, 46_pipeline.md R336). -/
theorem writeBackClock_readReg (s : State) (l : Option MWb) (i : RegIdx) :
    (writeBackClock s l).readReg i =
      match l with
      | none => s.readReg i
      | some l =>
        if writeEnabled l = true ∧ writeBackIndex l = i then (if i = 0#5 then 0#32 else writeBackValue l) else s.readReg i := by
  rcases l with _ | l
  · rfl
  · simp only [writeBackClock]
    by_cases hw : writeEnabled l = true
    · rw [if_pos hw]
      by_cases hi : writeBackIndex l = i
      · subst hi
        rw [if_pos ⟨hw, rfl⟩]
        exact readReg_writeReg_self s (writeBackIndex l) (writeBackValue l)
      · rw [if_neg (fun h => hi h.2)]
        exact readReg_writeReg_other s (writeBackIndex l) i (writeBackValue l) (fun h => hi h.symm)
    · rw [if_neg hw, if_neg (fun h => hw h.1)]
      rfl

@[simp] theorem endCycle_readReg (s : State) (i : RegIdx) : s.endCycle.readReg i = s.readReg i :=
  readReg_congr _ _ (endCycle_regs s) i

/-! ### What each stage can answer -/

/-- Everything fetch can answer (46_pipeline.md R315 to R317). -/
theorem fetchPropagate_cases (s : State) :
    (s.fetchDone = true ∧ fetchPropagate s = .ok (s, none)) ∨
    (s.fetchDone = false ∧ ∃ r, s.applyDelaySlot.fetchWord = .error r ∧ fetchPropagate s = .error r) ∨
    (s.fetchDone = false ∧ s.applyDelaySlot.fetchWord = .ok s.endWord ∧
      fetchPropagate s = .ok ({ s.applyDelaySlot with fetchDone := true }, none)) ∨
    (s.fetchDone = false ∧ ∃ w, w ≠ s.endWord ∧ s.applyDelaySlot.fetchWord = .ok w ∧
      fetchPropagate s = .ok (s.applyDelaySlot, some { pc := s.fetchAddress, iw := w })) := by
  unfold fetchPropagate
  cases hd : s.fetchDone
  · cases hw : s.applyDelaySlot.fetchWord with
    | error r => exact Or.inr (Or.inl ⟨rfl, r, rfl, by simp⟩)
    | ok w =>
      by_cases he : w = s.endWord
      · subst he
        exact Or.inr (Or.inr (Or.inl ⟨rfl, rfl, by simp⟩))
      · exact Or.inr (Or.inr (Or.inr ⟨rfl, w, he, rfl, by simp [he]⟩))
  · exact Or.inl ⟨rfl, by simp⟩

/-- Everything decode can answer (46_pipeline.md R319 to R323). -/
theorem decodePropagate_cases (s : State) :
    (s.ifid.out = none ∧ decodePropagate s = .ok none) ∨
    (∃ l m, s.ifid.out = some l ∧ resolve s.endWord l.iw = .ok m ∧ decodePropagate s = .ok (some (decodeResolved s l m))) ∨
    (∃ l r, s.ifid.out = some l ∧ resolve s.endWord l.iw = .error r ∧
      decodePropagate s = .error (.illegalInstruction l.pc l.iw)) := by
  unfold decodePropagate
  cases hl : s.ifid.out with
  | none => exact Or.inl ⟨rfl, rfl⟩
  | some l =>
    cases hr : resolve s.endWord l.iw with
    | ok m => exact Or.inr (Or.inl ⟨l, m, rfl, hr, by simp [hr]⟩)
    | error r => exact Or.inr (Or.inr ⟨l, r, rfl, hr, by simp [hr]⟩)

/-- With the bundle of its own instruction, execute always has a result (46_pipeline.md R324 to R328). -/
theorem executeResult_ok (l : IdEx) (h : l.ctl = controlBundle l.instr) : ∃ v, executeResult l = .ok v := by
  have hm : ∀ m : Mnemonic, skipsAlu m = true ∨ m = .movhi ∨ selAOf m ≠ .rd := by intro m; cases m <;> decide
  unfold executeResult
  split
  · exact ⟨_, rfl⟩
  · next hs =>
    split
    all_goals first
      | exact ⟨_, rfl⟩
      | skip
    next h1 _ _ _ _ _ =>
      have hrd : l.ctl.selA ≠ .rd := by
        rw [h]
        rcases hm l.instr with h3 | h3 | h3
        · exact absurd h3 hs
        · exact absurd h3 (by assumption)
        · exact h3
      unfold executeMuxed
      split
      all_goals first
        | exact ⟨_, rfl⟩
        | (next he _ => exact absurd he hrd)

/-- Everything the memory stage's access can do with a valid size (46_pipeline.md R330, R331). -/
theorem memoryAccess_cases (s : State) (l : ExM) (hn : validSize l.ctl.size = true) :
    (l.ctl.memMode = .noAccess ∧ memoryAccess s l = .ok (s.mem, 0#32)) ∨
    (l.ctl.memMode = .load ∧ ∃ bytes, busRead s.bus s.mem l.aluOut.toNat l.ctl.size = some bytes ∧
      memoryAccess s l = .ok (s.mem, extendLoaded l.ctl.size l.ctl.sext (ofBigEndian 0#64 bytes))) ∨
    (l.ctl.memMode = .load ∧ busRead s.bus s.mem l.aluOut.toNat l.ctl.size = none ∧
      memoryAccess s l = .error (.dataAccessFailure l.aluOut)) ∨
    (l.ctl.memMode = .store ∧ ∃ m,
      busWrite s.bus s.mem l.aluOut.toNat (toBigEndian l.ctl.size (l.rs2Val.setWidth 64)) = some m ∧
      memoryAccess s l = .ok (m, 0#32)) ∨
    (l.ctl.memMode = .store ∧ busWrite s.bus s.mem l.aluOut.toNat (toBigEndian l.ctl.size (l.rs2Val.setWidth 64)) = none ∧
      memoryAccess s l = .error (.dataAccessFailure l.aluOut)) := by
  unfold memoryAccess
  cases hm : l.ctl.memMode with
  | noAccess => exact Or.inl ⟨rfl, rfl⟩
  | load =>
    rcases memRead_cases s l.aluOut l.ctl.size with ⟨_, v, h2, h3⟩ | ⟨_, h2, h3⟩ | ⟨h1, _⟩
    · exact Or.inr (Or.inl ⟨rfl, v, h2, by simp [h3]⟩)
    · exact Or.inr (Or.inr (Or.inl ⟨rfl, h2, by simp [h3]⟩))
    · rw [h1] at hn; cases hn
  | store =>
    rcases memWrite_cases s l.aluOut l.ctl.size (l.rs2Val.setWidth 64) with ⟨_, v, h2, h3⟩ | ⟨_, h2, h3⟩ | ⟨h1, _⟩
    · exact Or.inr (Or.inr (Or.inr (Or.inl ⟨rfl, v, h2, by simp [h3]⟩)))
    · exact Or.inr (Or.inr (Or.inr (Or.inr ⟨rfl, h2, by simp [h3]⟩)))
    · rw [h1] at hn; cases hn

/-- Every size the control-signal generator emits is one the adapter takes (20_memory.md R53). -/
theorem validSize_sizeOf (m : Mnemonic) : validSize (sizeOf m) = true := by cases m <;> rfl

/-! ### What a cycle can do -/

/-- A pipelined cycle that raises nothing: the four answers of the stages and the state they are committed to (46_pipeline.md R341). -/
theorem pipelinedStages_ok (s t : State) (h : pipelinedStages s = .ok t) :
    ∃ s1 f d e m, fetchPropagate s = .ok (s1, f) ∧ decodePropagate s = .ok d ∧ executePropagate s = .ok e ∧
      memoryStage s = .ok m ∧
      t = writeBackClock (memoryClock (executeClock (decodeClock (fetchClock s1 f) d) e) m) s.mwb.out := by
  unfold pipelinedStages at h
  split at h
  · cases h
  · next s1 f hf =>
    split at h
    · cases h
    · next d hd =>
      split at h
      · cases h
      · next e he =>
        split at h
        · cases h
        · next m hm => exact ⟨s1, f, d, e, m, hf, hd, he, hm, (Except.ok.inj h).symm⟩

/-- A running core's cycle that answers a next state is the stages' work and the end of the cycle (46_pipeline.md R340). -/
theorem runningCycle_next (s t : State) (h : runningCycle s = .next t) :
    ∃ u, (if s.pipelined then pipelinedStages s else roundRobinStage s) = .ok u ∧ t = u.endCycle := by
  unfold runningCycle at h
  split at h
  · next u hu => exact ⟨u, hu, (Host.Outcome.next.inj h).symm⟩
  · cases h

/-- A cycle of a running pipelined core that answers a next state. -/
theorem cycle_pipelined_next (s t : State) (hr : s.status = .running) (hp : s.pipelined = true) (h : cycle s = .next t) :
    ∃ u, pipelinedStages s = .ok u ∧ t = u.endCycle := by
  unfold cycle at h
  rw [hr] at h
  simpa [hp] using runningCycle_next s t h

/-- A cycle of a running non-pipelined core that answers a next state (46_pipeline.md R342). -/
theorem cycle_roundRobin_next (s t : State) (hr : s.status = .running) (hp : s.pipelined = false) (h : cycle s = .next t) :
    ∃ u, activeStage s = .ok u ∧ t = State.endCycle { u with cursor := u.cursor + 1 } := by
  unfold cycle at h
  rw [hr] at h
  obtain ⟨v, hv, ht⟩ := runningCycle_next s t h
  rw [hp] at hv
  simp only [Bool.false_eq_true, if_false] at hv
  unfold roundRobinStage at hv
  split at hv
  · next u hu => exact ⟨u, hu, by rw [ht, ← Except.ok.inj hv]⟩
  · cases hv

/-- Runs of cycles compose. -/
theorem cycles_add (j k : Nat) (s t : State) (h : cycles j s = .next t) : cycles (j + k) s = cycles k t := by
  induction j generalizing s with
  | zero => cases h; rw [Nat.zero_add]
  | succ j ih =>
    rw [Nat.add_right_comm]
    simp only [cycles] at h ⊢
    split at h
    · next u hu => exact ih u h
    · cases h
    · cases h

/-- One cycle is a run of one cycle. -/
theorem cycles_one (s : State) : cycles 1 s = cycle s := by
  simp only [cycles]
  split <;> simp_all

/-! ### What a step can do -/

/-- A step of a running non-pipelined core between two instructions is `Step` (46_pipeline.md R345). -/
theorem step_boundary (s : State) (hr : s.status = .running) (hb : s.atInstructionBoundary = true) : step s = instructionStep s := by
  unfold step; rw [hr]; simp [hb]

/-- A step of any other running core is one clock cycle (46_pipeline.md R340). -/
theorem step_cycle (s : State) (hr : s.status = .running) (hb : s.atInstructionBoundary = false) : step s = cycle s := by
  unfold step; rw [hr]; simp [hb]

/-- Everything `Step` can do (46_pipeline.md R345). -/
theorem instructionStep_cases (s : State) :
    (∃ r, s.applyDelaySlot.fetchWord = .error r ∧ instructionStep s = .fault r) ∨
    (∃ w r, s.applyDelaySlot.fetchWord = .ok w ∧ decode s.endWord w = .error r ∧
      instructionStep s = .fault (.illegalInstruction s.fetchAddress w)) ∨
    (∃ w i, s.applyDelaySlot.fetchWord = .ok w ∧ decode s.endWord w = .ok i ∧
      instructionStep s = exec i s.applyDelaySlot) := by
  unfold instructionStep
  cases hw : s.applyDelaySlot.fetchWord with
  | error r => exact Or.inl ⟨r, rfl, rfl⟩
  | ok w =>
    cases hd : decode s.endWord w with
    | error r => exact Or.inr (Or.inl ⟨w, r, rfl, hd, by simp [hd, raise]⟩)
    | ok i => exact Or.inr (Or.inr ⟨w, i, rfl, hd, by simp [hd]⟩)

end Sys2Proof.Machine
end

