-- ==== Sys2Proof/Laws/Encoding.lean ====
section
/-! SUPPORT. Fields of words that are built field by field. -/

namespace Sys2Proof

/-- A field reads back from where it was put (00_scope.md R9). -/
theorem extract_put_self {n : Nat} (v : BitVec n) (lo : Nat) (h : lo + n ≤ 32) : (put v lo).extractLsb' lo n = v := by
  apply BitVec.eq_of_getLsbD_eq
  intro j hj
  have h1 : lo + j < 32 := by omega
  simp [put, hj, h1]

/-- A field put elsewhere reads as 0. -/
theorem extract_put_disjoint {n : Nat} (v : BitVec n) (lo k m : Nat) (h : k + m ≤ lo ∨ lo + n ≤ k) :
    (put v lo).extractLsb' k m = 0#m := by
  apply BitVec.eq_of_getLsbD_eq
  intro j hj
  rcases h with h | h
  · have h1 : k + j < lo := by omega
    simp [put, h1]
  · have h1 : n ≤ k + j - lo := by omega
    simp [put, BitVec.getLsbD_of_ge v _ h1]

/-- The two halves of a store's displacement make it whole (30_encoding.md R94). -/
theorem storeOffset_halves (i : BitVec 16) : i.extractLsb' 11 5 ++ i.extractLsb' 0 11 = i := by
  apply BitVec.eq_of_getLsbD_eq
  intro j hj
  rw [BitVec.getLsbD_append]
  interval_cases j <;> simp

@[simp] theorem fieldD_or (v w : Word) : fieldD (v ||| w) = fieldD v ||| fieldD w := by simp [fieldD, BitVec.extractLsb'_or]
@[simp] theorem fieldA_or (v w : Word) : fieldA (v ||| w) = fieldA v ||| fieldA w := by simp [fieldA, BitVec.extractLsb'_or]
@[simp] theorem fieldB_or (v w : Word) : fieldB (v ||| w) = fieldB v ||| fieldB w := by simp [fieldB, BitVec.extractLsb'_or]
@[simp] theorem imm16_or (v w : Word) : imm16 (v ||| w) = imm16 v ||| imm16 w := by simp [imm16, BitVec.extractLsb'_or]
@[simp] theorem imm6_or (v w : Word) : imm6 (v ||| w) = imm6 v ||| imm6 w := by simp [imm6, BitVec.extractLsb'_or]
@[simp] theorem imm26_or (v w : Word) : imm26 (v ||| w) = imm26 v ||| imm26 w := by simp [imm26, BitVec.extractLsb'_or]
@[simp] theorem imm21_or (v w : Word) : imm21 (v ||| w) = imm21 v ||| imm21 w := by simp [imm21, BitVec.extractLsb'_or]

/-- The `D` field where it is put, and nothing of a field that is put elsewhere. -/
@[simp] theorem fieldD_put_self (v : RegIdx) : fieldD (put v 21) = v := extract_put_self v 21 (by decide)
theorem fieldD_put_other {n : Nat} (v : BitVec n) (lo : Nat) (h : 26 ≤ lo ∨ lo + n ≤ 21) : fieldD (put v lo) = 0#5 :=
  extract_put_disjoint v lo 21 5 h

/-- The `A` field likewise. -/
@[simp] theorem fieldA_put_self (v : RegIdx) : fieldA (put v 16) = v := extract_put_self v 16 (by decide)
theorem fieldA_put_other {n : Nat} (v : BitVec n) (lo : Nat) (h : 21 ≤ lo ∨ lo + n ≤ 16) : fieldA (put v lo) = 0#5 :=
  extract_put_disjoint v lo 16 5 h

/-- The `B` field likewise. -/
@[simp] theorem fieldB_put_self (v : RegIdx) : fieldB (put v 11) = v := extract_put_self v 11 (by decide)
theorem fieldB_put_other {n : Nat} (v : BitVec n) (lo : Nat) (h : 16 ≤ lo ∨ lo + n ≤ 11) : fieldB (put v lo) = 0#5 :=
  extract_put_disjoint v lo 11 5 h

/-- The immediate fields likewise. -/
@[simp] theorem imm16_put_self (v : BitVec 16) : imm16 (put v 0) = v := extract_put_self v 0 (by decide)
theorem imm16_put_other {n : Nat} (v : BitVec n) (lo : Nat) (h : 16 ≤ lo) : imm16 (put v lo) = 0#16 :=
  extract_put_disjoint v lo 0 16 (Or.inl h)
@[simp] theorem imm6_put_self (v : BitVec 6) : imm6 (put v 0) = v := extract_put_self v 0 (by decide)
theorem imm6_put_other {n : Nat} (v : BitVec n) (lo : Nat) (h : 6 ≤ lo) : imm6 (put v lo) = 0#6 :=
  extract_put_disjoint v lo 0 6 (Or.inl h)
@[simp] theorem imm26_put_self (v : BitVec 26) : imm26 (put v 0) = v := extract_put_self v 0 (by decide)
theorem imm26_put_other {n : Nat} (v : BitVec n) (lo : Nat) (h : 26 ≤ lo) : imm26 (put v lo) = 0#26 :=
  extract_put_disjoint v lo 0 26 (Or.inl h)
@[simp] theorem imm21_put_self (v : BitVec 21) : imm21 (put v 0) = v := extract_put_self v 0 (by decide)
theorem imm21_put_other {n : Nat} (v : BitVec n) (lo : Nat) (h : 21 ≤ lo) : imm21 (put v lo) = 0#21 :=
  extract_put_disjoint v lo 0 21 (Or.inl h)

/-- The split displacement of a store, where both halves are put and nothing else overlaps them (30_encoding.md R94). -/
theorem storeOffset_put (op : BitVec 6) (a b : RegIdx) (i : BitVec 16) :
    storeOffset (put op 26 ||| put (i.extractLsb' 11 5) 21 ||| put a 16 ||| put b 11 ||| put (i.extractLsb' 0 11) 0) = i := by
  simp only [storeOffset, BitVec.extractLsb'_or]
  rw [extract_put_disjoint op 26 21 5 (by decide), extract_put_self _ 21 (by decide), extract_put_disjoint a 16 21 5 (by decide),
    extract_put_disjoint b 11 21 5 (by decide), extract_put_disjoint _ 0 21 5 (by decide),
    extract_put_disjoint op 26 0 11 (by decide), extract_put_disjoint _ 21 0 11 (by decide),
    extract_put_disjoint a 16 0 11 (by decide), extract_put_disjoint b 11 0 11 (by decide), extract_put_self _ 0 (by decide)]
  simpa using storeOffset_halves i

end Sys2Proof
end

