-- ==== Sys2Proof/Laws/PerInstr.lean ====
section
/-! SUPPORT. The per-instruction families: one lemma per constructor of `Instr`. -/

namespace Sys2Proof.Laws

/-- The word the encoder writes for an instruction holds every one of its fields where the decoder extracts it (30_encoding.md R82,
R83): reading the operands back gives the instruction, whatever `END_WORD` is. -/
def OperandsRoundTrip.Statement (i : Instr) : Prop := ∀ e : Word, operandsOf i.mnemonic (encode e i) = i

theorem OperandsRoundTrip.addi (d : RegIdx) (a : RegIdx) (i : BitVec 16) : OperandsRoundTrip.Statement (.addi d a i) := fun _ => by
  delta operandsOf Instr.mnemonic encode; simp [fieldD_put_other, fieldA_put_other, imm16_put_other]
theorem OperandsRoundTrip.ori (d : RegIdx) (a : RegIdx) (i : BitVec 16) : OperandsRoundTrip.Statement (.ori d a i) := fun _ => by
  delta operandsOf Instr.mnemonic encode; simp [fieldD_put_other, fieldA_put_other, imm16_put_other]
theorem OperandsRoundTrip.slli (d : RegIdx) (a : RegIdx) (l : BitVec 6) : OperandsRoundTrip.Statement (.slli d a l) := fun _ => by
  delta operandsOf Instr.mnemonic encode; simp [fieldD_put_other, fieldA_put_other, imm6_put_other]
theorem OperandsRoundTrip.srli (d : RegIdx) (a : RegIdx) (l : BitVec 6) : OperandsRoundTrip.Statement (.srli d a l) := fun _ => by
  delta operandsOf Instr.mnemonic encode; simp [fieldD_put_other, fieldA_put_other, imm6_put_other]
theorem OperandsRoundTrip.srai (d : RegIdx) (a : RegIdx) (l : BitVec 6) : OperandsRoundTrip.Statement (.srai d a l) := fun _ => by
  delta operandsOf Instr.mnemonic encode; simp [fieldD_put_other, fieldA_put_other, imm6_put_other]
theorem OperandsRoundTrip.rori (d : RegIdx) (a : RegIdx) (l : BitVec 6) : OperandsRoundTrip.Statement (.rori d a l) := fun _ => by
  delta operandsOf Instr.mnemonic encode; simp [fieldD_put_other, fieldA_put_other, imm6_put_other]
theorem OperandsRoundTrip.movhi (d : RegIdx) (k : BitVec 16) : OperandsRoundTrip.Statement (.movhi d k) := fun _ => by
  delta operandsOf Instr.mnemonic encode; simp [fieldD_put_other, imm16_put_other]
theorem OperandsRoundTrip.macrc (d : RegIdx) : OperandsRoundTrip.Statement (.macrc d) := fun _ => by
  delta operandsOf Instr.mnemonic encode; simp [fieldD_put_other]
theorem OperandsRoundTrip.add (d : RegIdx) (a : RegIdx) (b : RegIdx) : OperandsRoundTrip.Statement (.add d a b) := fun _ => by
  delta operandsOf Instr.mnemonic encode; simp [fieldD_put_other, fieldA_put_other, fieldB_put_other]
theorem OperandsRoundTrip.sub (d : RegIdx) (a : RegIdx) (b : RegIdx) : OperandsRoundTrip.Statement (.sub d a b) := fun _ => by
  delta operandsOf Instr.mnemonic encode; simp [fieldD_put_other, fieldA_put_other, fieldB_put_other]
theorem OperandsRoundTrip.or (d : RegIdx) (a : RegIdx) (b : RegIdx) : OperandsRoundTrip.Statement (.or d a b) := fun _ => by
  delta operandsOf Instr.mnemonic encode; simp [fieldD_put_other, fieldA_put_other, fieldB_put_other]
theorem OperandsRoundTrip.sll (d : RegIdx) (a : RegIdx) (b : RegIdx) : OperandsRoundTrip.Statement (.sll d a b) := fun _ => by
  delta operandsOf Instr.mnemonic encode; simp [fieldD_put_other, fieldA_put_other, fieldB_put_other]
theorem OperandsRoundTrip.sra (d : RegIdx) (a : RegIdx) (b : RegIdx) : OperandsRoundTrip.Statement (.sra d a b) := fun _ => by
  delta operandsOf Instr.mnemonic encode; simp [fieldD_put_other, fieldA_put_other, fieldB_put_other]
theorem OperandsRoundTrip.and (d : RegIdx) (a : RegIdx) (b : RegIdx) : OperandsRoundTrip.Statement (.and d a b) := fun _ => by
  delta operandsOf Instr.mnemonic encode; simp [fieldD_put_other, fieldA_put_other, fieldB_put_other]
theorem OperandsRoundTrip.xor (d : RegIdx) (a : RegIdx) (b : RegIdx) : OperandsRoundTrip.Statement (.xor d a b) := fun _ => by
  delta operandsOf Instr.mnemonic encode; simp [fieldD_put_other, fieldA_put_other, fieldB_put_other]
theorem OperandsRoundTrip.cmov (d : RegIdx) (a : RegIdx) (b : RegIdx) : OperandsRoundTrip.Statement (.cmov d a b) := fun _ => by
  delta operandsOf Instr.mnemonic encode; simp [fieldD_put_other, fieldA_put_other, fieldB_put_other]
theorem OperandsRoundTrip.ff1 (d : RegIdx) (a : RegIdx) : OperandsRoundTrip.Statement (.ff1 d a) := fun _ => by
  delta operandsOf Instr.mnemonic encode; simp [fieldD_put_other, fieldA_put_other]
theorem OperandsRoundTrip.srl (d : RegIdx) (a : RegIdx) (b : RegIdx) : OperandsRoundTrip.Statement (.srl d a b) := fun _ => by
  delta operandsOf Instr.mnemonic encode; simp [fieldD_put_other, fieldA_put_other, fieldB_put_other]
theorem OperandsRoundTrip.ror (d : RegIdx) (a : RegIdx) (b : RegIdx) : OperandsRoundTrip.Statement (.ror d a b) := fun _ => by
  delta operandsOf Instr.mnemonic encode; simp [fieldD_put_other, fieldA_put_other, fieldB_put_other]
theorem OperandsRoundTrip.exths (d : RegIdx) (a : RegIdx) : OperandsRoundTrip.Statement (.exths d a) := fun _ => by
  delta operandsOf Instr.mnemonic encode; simp [fieldD_put_other, fieldA_put_other]
theorem OperandsRoundTrip.extbs (d : RegIdx) (a : RegIdx) : OperandsRoundTrip.Statement (.extbs d a) := fun _ => by
  delta operandsOf Instr.mnemonic encode; simp [fieldD_put_other, fieldA_put_other]
theorem OperandsRoundTrip.exthz (d : RegIdx) (a : RegIdx) : OperandsRoundTrip.Statement (.exthz d a) := fun _ => by
  delta operandsOf Instr.mnemonic encode; simp [fieldD_put_other, fieldA_put_other]
theorem OperandsRoundTrip.extbz (d : RegIdx) (a : RegIdx) : OperandsRoundTrip.Statement (.extbz d a) := fun _ => by
  delta operandsOf Instr.mnemonic encode; simp [fieldD_put_other, fieldA_put_other]
theorem OperandsRoundTrip.extws (d : RegIdx) (a : RegIdx) : OperandsRoundTrip.Statement (.extws d a) := fun _ => by
  delta operandsOf Instr.mnemonic encode; simp [fieldD_put_other, fieldA_put_other]
theorem OperandsRoundTrip.extwz (d : RegIdx) (a : RegIdx) : OperandsRoundTrip.Statement (.extwz d a) := fun _ => by
  delta operandsOf Instr.mnemonic encode; simp [fieldD_put_other, fieldA_put_other]
theorem OperandsRoundTrip.mul (d : RegIdx) (a : RegIdx) (b : RegIdx) : OperandsRoundTrip.Statement (.mul d a b) := fun _ => by
  delta operandsOf Instr.mnemonic encode; simp [fieldD_put_other, fieldA_put_other, fieldB_put_other]
theorem OperandsRoundTrip.div (d : RegIdx) (a : RegIdx) (b : RegIdx) : OperandsRoundTrip.Statement (.div d a b) := fun _ => by
  delta operandsOf Instr.mnemonic encode; simp [fieldD_put_other, fieldA_put_other, fieldB_put_other]
theorem OperandsRoundTrip.divu (d : RegIdx) (a : RegIdx) (b : RegIdx) : OperandsRoundTrip.Statement (.divu d a b) := fun _ => by
  delta operandsOf Instr.mnemonic encode; simp [fieldD_put_other, fieldA_put_other, fieldB_put_other]
theorem OperandsRoundTrip.mulu (d : RegIdx) (a : RegIdx) (b : RegIdx) : OperandsRoundTrip.Statement (.mulu d a b) := fun _ => by
  delta operandsOf Instr.mnemonic encode; simp [fieldD_put_other, fieldA_put_other, fieldB_put_other]
theorem OperandsRoundTrip.sfeq (a : RegIdx) (b : RegIdx) : OperandsRoundTrip.Statement (.sfeq a b) := fun _ => by
  delta operandsOf Instr.mnemonic encode; simp [fieldA_put_other, fieldB_put_other]
theorem OperandsRoundTrip.sfne (a : RegIdx) (b : RegIdx) : OperandsRoundTrip.Statement (.sfne a b) := fun _ => by
  delta operandsOf Instr.mnemonic encode; simp [fieldA_put_other, fieldB_put_other]
theorem OperandsRoundTrip.sfges (a : RegIdx) (b : RegIdx) : OperandsRoundTrip.Statement (.sfges a b) := fun _ => by
  delta operandsOf Instr.mnemonic encode; simp [fieldA_put_other, fieldB_put_other]
theorem OperandsRoundTrip.sfles (a : RegIdx) (b : RegIdx) : OperandsRoundTrip.Statement (.sfles a b) := fun _ => by
  delta operandsOf Instr.mnemonic encode; simp [fieldA_put_other, fieldB_put_other]
theorem OperandsRoundTrip.sfeqi (a : RegIdx) (i : BitVec 16) : OperandsRoundTrip.Statement (.sfeqi a i) := fun _ => by
  delta operandsOf Instr.mnemonic encode; simp [fieldA_put_other, imm16_put_other]
theorem OperandsRoundTrip.sfnei (a : RegIdx) (i : BitVec 16) : OperandsRoundTrip.Statement (.sfnei a i) := fun _ => by
  delta operandsOf Instr.mnemonic encode; simp [fieldA_put_other, imm16_put_other]
theorem OperandsRoundTrip.sfgesi (a : RegIdx) (i : BitVec 16) : OperandsRoundTrip.Statement (.sfgesi a i) := fun _ => by
  delta operandsOf Instr.mnemonic encode; simp [fieldA_put_other, imm16_put_other]
theorem OperandsRoundTrip.sflesi (a : RegIdx) (i : BitVec 16) : OperandsRoundTrip.Statement (.sflesi a i) := fun _ => by
  delta operandsOf Instr.mnemonic encode; simp [fieldA_put_other, imm16_put_other]
theorem OperandsRoundTrip.sfgtu (a : RegIdx) (b : RegIdx) : OperandsRoundTrip.Statement (.sfgtu a b) := fun _ => by
  delta operandsOf Instr.mnemonic encode; simp [fieldA_put_other, fieldB_put_other]
theorem OperandsRoundTrip.sfgeu (a : RegIdx) (b : RegIdx) : OperandsRoundTrip.Statement (.sfgeu a b) := fun _ => by
  delta operandsOf Instr.mnemonic encode; simp [fieldA_put_other, fieldB_put_other]
theorem OperandsRoundTrip.sfltu (a : RegIdx) (b : RegIdx) : OperandsRoundTrip.Statement (.sfltu a b) := fun _ => by
  delta operandsOf Instr.mnemonic encode; simp [fieldA_put_other, fieldB_put_other]
theorem OperandsRoundTrip.sfleu (a : RegIdx) (b : RegIdx) : OperandsRoundTrip.Statement (.sfleu a b) := fun _ => by
  delta operandsOf Instr.mnemonic encode; simp [fieldA_put_other, fieldB_put_other]
theorem OperandsRoundTrip.sfgts (a : RegIdx) (b : RegIdx) : OperandsRoundTrip.Statement (.sfgts a b) := fun _ => by
  delta operandsOf Instr.mnemonic encode; simp [fieldA_put_other, fieldB_put_other]
theorem OperandsRoundTrip.sflts (a : RegIdx) (b : RegIdx) : OperandsRoundTrip.Statement (.sflts a b) := fun _ => by
  delta operandsOf Instr.mnemonic encode; simp [fieldA_put_other, fieldB_put_other]
theorem OperandsRoundTrip.sfgtui (a : RegIdx) (i : BitVec 16) : OperandsRoundTrip.Statement (.sfgtui a i) := fun _ => by
  delta operandsOf Instr.mnemonic encode; simp [fieldA_put_other, imm16_put_other]
theorem OperandsRoundTrip.sfgeui (a : RegIdx) (i : BitVec 16) : OperandsRoundTrip.Statement (.sfgeui a i) := fun _ => by
  delta operandsOf Instr.mnemonic encode; simp [fieldA_put_other, imm16_put_other]
theorem OperandsRoundTrip.sfltui (a : RegIdx) (i : BitVec 16) : OperandsRoundTrip.Statement (.sfltui a i) := fun _ => by
  delta operandsOf Instr.mnemonic encode; simp [fieldA_put_other, imm16_put_other]
theorem OperandsRoundTrip.sfleui (a : RegIdx) (i : BitVec 16) : OperandsRoundTrip.Statement (.sfleui a i) := fun _ => by
  delta operandsOf Instr.mnemonic encode; simp [fieldA_put_other, imm16_put_other]
theorem OperandsRoundTrip.sfgtsi (a : RegIdx) (i : BitVec 16) : OperandsRoundTrip.Statement (.sfgtsi a i) := fun _ => by
  delta operandsOf Instr.mnemonic encode; simp [fieldA_put_other, imm16_put_other]
theorem OperandsRoundTrip.sfltsi (a : RegIdx) (i : BitVec 16) : OperandsRoundTrip.Statement (.sfltsi a i) := fun _ => by
  delta operandsOf Instr.mnemonic encode; simp [fieldA_put_other, imm16_put_other]
theorem OperandsRoundTrip.lwa (d : RegIdx) (a : RegIdx) (i : BitVec 16) : OperandsRoundTrip.Statement (.lwa d a i) := fun _ => by
  delta operandsOf Instr.mnemonic encode; simp [fieldD_put_other, fieldA_put_other, imm16_put_other]
theorem OperandsRoundTrip.lwz (d : RegIdx) (a : RegIdx) (i : BitVec 16) : OperandsRoundTrip.Statement (.lwz d a i) := fun _ => by
  delta operandsOf Instr.mnemonic encode; simp [fieldD_put_other, fieldA_put_other, imm16_put_other]
theorem OperandsRoundTrip.lws (d : RegIdx) (a : RegIdx) (i : BitVec 16) : OperandsRoundTrip.Statement (.lws d a i) := fun _ => by
  delta operandsOf Instr.mnemonic encode; simp [fieldD_put_other, fieldA_put_other, imm16_put_other]
theorem OperandsRoundTrip.lbz (d : RegIdx) (a : RegIdx) (i : BitVec 16) : OperandsRoundTrip.Statement (.lbz d a i) := fun _ => by
  delta operandsOf Instr.mnemonic encode; simp [fieldD_put_other, fieldA_put_other, imm16_put_other]
theorem OperandsRoundTrip.lbs (d : RegIdx) (a : RegIdx) (i : BitVec 16) : OperandsRoundTrip.Statement (.lbs d a i) := fun _ => by
  delta operandsOf Instr.mnemonic encode; simp [fieldD_put_other, fieldA_put_other, imm16_put_other]
theorem OperandsRoundTrip.lhz (d : RegIdx) (a : RegIdx) (i : BitVec 16) : OperandsRoundTrip.Statement (.lhz d a i) := fun _ => by
  delta operandsOf Instr.mnemonic encode; simp [fieldD_put_other, fieldA_put_other, imm16_put_other]
theorem OperandsRoundTrip.lhs (d : RegIdx) (a : RegIdx) (i : BitVec 16) : OperandsRoundTrip.Statement (.lhs d a i) := fun _ => by
  delta operandsOf Instr.mnemonic encode; simp [fieldD_put_other, fieldA_put_other, imm16_put_other]
theorem OperandsRoundTrip.lf (d : RegIdx) (a : RegIdx) (i : BitVec 16) : OperandsRoundTrip.Statement (.lf d a i) := fun _ => by
  delta operandsOf Instr.mnemonic encode; simp [fieldD_put_other, fieldA_put_other, imm16_put_other]
theorem OperandsRoundTrip.swa (i : BitVec 16) (a : RegIdx) (b : RegIdx) : OperandsRoundTrip.Statement (.swa i a b) := fun _ => by
  delta operandsOf Instr.mnemonic encode; simp [storeOffset_put, fieldA_put_other, fieldB_put_other]
theorem OperandsRoundTrip.sw (i : BitVec 16) (a : RegIdx) (b : RegIdx) : OperandsRoundTrip.Statement (.sw i a b) := fun _ => by
  delta operandsOf Instr.mnemonic encode; simp [storeOffset_put, fieldA_put_other, fieldB_put_other]
theorem OperandsRoundTrip.sb (i : BitVec 16) (a : RegIdx) (b : RegIdx) : OperandsRoundTrip.Statement (.sb i a b) := fun _ => by
  delta operandsOf Instr.mnemonic encode; simp [storeOffset_put, fieldA_put_other, fieldB_put_other]
theorem OperandsRoundTrip.sh (i : BitVec 16) (a : RegIdx) (b : RegIdx) : OperandsRoundTrip.Statement (.sh i a b) := fun _ => by
  delta operandsOf Instr.mnemonic encode; simp [storeOffset_put, fieldA_put_other, fieldB_put_other]
theorem OperandsRoundTrip.sd (i : BitVec 16) (a : RegIdx) (b : RegIdx) : OperandsRoundTrip.Statement (.sd i a b) := fun _ => by
  delta operandsOf Instr.mnemonic encode; simp [storeOffset_put, fieldA_put_other, fieldB_put_other]
theorem OperandsRoundTrip.ld (d : RegIdx) (a : RegIdx) (i : BitVec 16) : OperandsRoundTrip.Statement (.ld d a i) := fun _ => by
  delta operandsOf Instr.mnemonic encode; simp [fieldD_put_other, fieldA_put_other, imm16_put_other]
theorem OperandsRoundTrip.j (n : BitVec 26) : OperandsRoundTrip.Statement (.j n) := fun _ => by
  delta operandsOf Instr.mnemonic encode; simp [imm26_put_other]
theorem OperandsRoundTrip.jal (n : BitVec 26) : OperandsRoundTrip.Statement (.jal n) := fun _ => by
  delta operandsOf Instr.mnemonic encode; simp [imm26_put_other]
theorem OperandsRoundTrip.bf (n : BitVec 26) : OperandsRoundTrip.Statement (.bf n) := fun _ => by
  delta operandsOf Instr.mnemonic encode; simp [imm26_put_other]
theorem OperandsRoundTrip.bnf (n : BitVec 26) : OperandsRoundTrip.Statement (.bnf n) := fun _ => by
  delta operandsOf Instr.mnemonic encode; simp [imm26_put_other]
theorem OperandsRoundTrip.jr (b : RegIdx) : OperandsRoundTrip.Statement (.jr b) := fun _ => by
  delta operandsOf Instr.mnemonic encode; simp [fieldB_put_other]
theorem OperandsRoundTrip.jalr (b : RegIdx) : OperandsRoundTrip.Statement (.jalr b) := fun _ => by
  delta operandsOf Instr.mnemonic encode; simp [fieldB_put_other]
theorem OperandsRoundTrip.nop (k : BitVec 16) : OperandsRoundTrip.Statement (.nop k) := fun _ => by
  delta operandsOf Instr.mnemonic encode; simp [imm16_put_other]
theorem OperandsRoundTrip.msync : OperandsRoundTrip.Statement .msync := fun _ => rfl
theorem OperandsRoundTrip.psync : OperandsRoundTrip.Statement .psync := fun _ => rfl
theorem OperandsRoundTrip.csync : OperandsRoundTrip.Statement .csync := fun _ => rfl
theorem OperandsRoundTrip.sys (k : BitVec 16) : OperandsRoundTrip.Statement (.sys k) := fun _ => by
  delta operandsOf Instr.mnemonic encode; simp [imm16_put_other]
theorem OperandsRoundTrip.trap (k : BitVec 16) : OperandsRoundTrip.Statement (.trap k) := fun _ => by
  delta operandsOf Instr.mnemonic encode; simp [imm16_put_other]
theorem OperandsRoundTrip.adrp (d : RegIdx) (n : BitVec 21) : OperandsRoundTrip.Statement (.adrp d n) := fun _ => by
  delta operandsOf Instr.mnemonic encode; simp [fieldD_put_other, imm21_put_other]
theorem OperandsRoundTrip.endOfTest : OperandsRoundTrip.Statement .endOfTest := fun _ => rfl

end Sys2Proof.Laws
end

