-- ==== Sys2Proof/Tests/Slice0.lean ====
section
/-! SUPPORT. Tests: the well-formedness smoke, the decoding of every constructor, one step of small states, and for every statement that has
hypotheses a concrete case that meets them. -/

namespace Sys2Proof.Tests

open Sys2Proof.Machine

/-! ### Helpers -/

/-- The next state of an outcome. -/
def after (o : Host.Outcome State Fault Refusal) : Option State :=
  match o with
  | .next t => some t
  | .fault _ => none
  | .refused _ => none

/-- The fault of an outcome. -/
def faultOf (o : Host.Outcome State Fault Refusal) : Option Fault :=
  match o with
  | .fault r => some r
  | .next _ => none
  | .refused _ => none

/-- The RAM of the default bus. -/
def ram : Config.Ram := { naturalAlignment := true, absent := [], readOnly := [] }

/-- The reset state of the mode over a memory that holds the words from address 0. -/
def boot (pipelined : Bool) (words : List Word) : State :=
  State.resetWith pipelined Config.endWordDefault Config.busDefault (Memory.writeBytes [] 0 (words.flatMap bytesOfWord))

/-- The non-pipelined reset state with r1 and r2 set. -/
def regs (v1 v2 : Word) : State := (State.reset.hostSetRegister 1#5 v1).hostSetRegister 2#5 v2

/-- As `regs`, at the address `pc` and with the bytes 81 23 45 67 at 0x100. -/
def atData (pc v1 v2 : Word) : State := (((regs v1 v2).hostSetEntry pc).hostLoadWords 0x100 [0x81234567#32]).getD State.reset

/-! ### Well-formedness: the ill-formed term is refused -/

theorem test_wellFormed_refuses_the_end_word : Instr.wellFormed (.sh 0x7CFF#16 31#5 25#5) = false := by decide
theorem test_wellFormed_neighbour : Instr.wellFormed (.sh 0x7CFE#16 31#5 25#5) = true := by decide
theorem test_end_word_is_not_that_store :
    encode Config.endWordDefault (.sh 0x7CFF#16 31#5 25#5) = Config.endWordDefault := by decide

/-! ### Decoding: every constructor, on words written out in the spec -/

/-- Decoding of immediate and shift-immediate, on the example words of R171 to R176, R179, R180. -/
theorem test_decode_immediates :
    decodeTableWord 32 0x9C41000A = some (.addi 2#5 1#5 10#16) ∧
    decodeTableWord 32 0xA8648000 = some (.ori 3#5 4#5 0x8000#16) ∧
    decodeTableWord 32 0xB8E10014 = some (.slli 7#5 1#5 20#6) ∧
    decodeTableWord 32 0xB8E10044 = some (.srli 7#5 1#5 4#6) ∧
    decodeTableWord 32 0xB8C10084 = some (.srai 6#5 1#5 4#6) ∧
    decodeTableWord 32 0xB8C100C4 = some (.rori 6#5 1#5 4#6) ∧
    decodeTableWord 32 0x18208123 = some (.movhi 1#5 0x8123#16) ∧
    decodeTableWord 32 0x18A10000 = some (.macrc 5#5) := by decide

/-- Decoding of the implemented part of the ADD family, on the example words of R181 to R185. -/
theorem test_decode_add_family :
    decodeTableWord 32 0xE0611000 = some (.add 3#5 1#5 2#5) ∧
    decodeTableWord 32 0xE0611002 = some (.sub 3#5 1#5 2#5) ∧
    decodeTableWord 32 0xE0611004 = some (.or 3#5 1#5 2#5) ∧
    decodeTableWord 32 0xE0611008 = some (.sll 3#5 1#5 2#5) ∧
    decodeTableWord 32 0xE0611088 = some (.sra 3#5 1#5 2#5) := by decide

/-- Decoding of the ADD-family stubs, on the example words of R186 to R193. -/
theorem test_decode_add_stubs_1 :
    decodeTableWord 32 0xE0611003 = some (.and 3#5 1#5 2#5) ∧
    decodeTableWord 32 0xE0611005 = some (.xor 3#5 1#5 2#5) ∧
    decodeTableWord 32 0xE061100E = some (.cmov 3#5 1#5 2#5) ∧
    decodeTableWord 32 0xE061100F = some (.ff1 3#5 1#5) ∧
    decodeTableWord 32 0xE0611048 = some (.srl 3#5 1#5 2#5) ∧
    decodeTableWord 32 0xE06110C8 = some (.ror 3#5 1#5 2#5) ∧
    decodeTableWord 32 0xE061100C = some (.exths 3#5 1#5) ∧
    decodeTableWord 32 0xE061104C = some (.extbs 3#5 1#5) := by decide

/-- Decoding of the ADD-family stubs, continued, on the example words of R194 to R201. -/
theorem test_decode_add_stubs_2 :
    decodeTableWord 32 0xE061108C = some (.exthz 3#5 1#5) ∧
    decodeTableWord 32 0xE06110CC = some (.extbz 3#5 1#5) ∧
    decodeTableWord 32 0xE061100D = some (.extws 3#5 1#5) ∧
    decodeTableWord 32 0xE061104D = some (.extwz 3#5 1#5) ∧
    decodeTableWord 32 0xE0611306 = some (.mul 3#5 1#5 2#5) ∧
    decodeTableWord 32 0xE0611309 = some (.div 3#5 1#5 2#5) ∧
    decodeTableWord 32 0xE061130A = some (.divu 3#5 1#5 2#5) ∧
    decodeTableWord 32 0xE061130B = some (.mulu 3#5 1#5 2#5) := by decide

/-- Decoding of the implemented compares, on the example words of R211 to R218. -/
theorem test_decode_compares :
    decodeTableWord 32 0xE4011000 = some (.sfeq 1#5 2#5) ∧
    decodeTableWord 32 0xE4211000 = some (.sfne 1#5 2#5) ∧
    decodeTableWord 32 0xE5611000 = some (.sfges 1#5 2#5) ∧
    decodeTableWord 32 0xE5A11000 = some (.sfles 1#5 2#5) ∧
    decodeTableWord 32 0xBC01FFFF = some (.sfeqi 1#5 0xFFFF#16) ∧
    decodeTableWord 32 0xBC210000 = some (.sfnei 1#5 0#16) ∧
    decodeTableWord 32 0xBD61FFFF = some (.sfgesi 1#5 0xFFFF#16) ∧
    decodeTableWord 32 0xBDA1FFFF = some (.sflesi 1#5 0xFFFF#16) := by decide

/-- Decoding of the stub compares, on the example words of R220 to R225. -/
theorem test_decode_stub_compares :
    decodeTableWord 32 0xE4411000 = some (.sfgtu 1#5 2#5) ∧
    decodeTableWord 32 0xE4611000 = some (.sfgeu 1#5 2#5) ∧
    decodeTableWord 32 0xE4811000 = some (.sfltu 1#5 2#5) ∧
    decodeTableWord 32 0xE4A11000 = some (.sfleu 1#5 2#5) ∧
    decodeTableWord 32 0xE5411000 = some (.sfgts 1#5 2#5) ∧
    decodeTableWord 32 0xE5811000 = some (.sflts 1#5 2#5) := by decide

/-- Decoding of the immediate stub compares, on the example words of R226 to R231. -/
theorem test_decode_stub_compares_imm :
    decodeTableWord 32 0xBC41FFFF = some (.sfgtui 1#5 0xFFFF#16) ∧
    decodeTableWord 32 0xBC61FFFF = some (.sfgeui 1#5 0xFFFF#16) ∧
    decodeTableWord 32 0xBC81FFFF = some (.sfltui 1#5 0xFFFF#16) ∧
    decodeTableWord 32 0xBCA1FFFF = some (.sfleui 1#5 0xFFFF#16) ∧
    decodeTableWord 32 0xBD41FFFF = some (.sfgtsi 1#5 0xFFFF#16) ∧
    decodeTableWord 32 0xBD81FFFF = some (.sfltsi 1#5 0xFFFF#16) := by decide

/-- Decoding of the loads, on the example words of R242 to R249, R256. -/
theorem test_decode_loads :
    decodeTableWord 32 0x6C41FFFC = some (.lwa 2#5 1#5 0xFFFC#16) ∧
    decodeTableWord 32 0x8441FFFC = some (.lwz 2#5 1#5 0xFFFC#16) ∧
    decodeTableWord 32 0x8841FFFC = some (.lws 2#5 1#5 0xFFFC#16) ∧
    decodeTableWord 32 0x8C41FFFC = some (.lbz 2#5 1#5 0xFFFC#16) ∧
    decodeTableWord 32 0x9041FFFC = some (.lbs 2#5 1#5 0xFFFC#16) ∧
    decodeTableWord 32 0x9441FFFC = some (.lhz 2#5 1#5 0xFFFC#16) ∧
    decodeTableWord 32 0x9841FFFC = some (.lhs 2#5 1#5 0xFFFC#16) ∧
    decodeTableWord 32 0x6841FFFC = some (.lf 2#5 1#5 0xFFFC#16) ∧
    decodeTableWord 32 0x8041FFFC = some (.ld 2#5 1#5 0xFFFC#16) := by decide

/-- Decoding of the stores, on the example words of R250 to R255. -/
theorem test_decode_stores :
    decodeTableWord 32 0xCFE117FC = some (.swa 0xFFFC#16 1#5 2#5) ∧
    decodeTableWord 32 0xD4001100 = some (.sw 0x100#16 0#5 2#5) ∧
    decodeTableWord 32 0xDBE117FC = some (.sb 0xFFFC#16 1#5 2#5) ∧
    decodeTableWord 32 0xDFE117FC = some (.sh 0xFFFC#16 1#5 2#5) ∧
    decodeTableWord 32 0xD3E117FC = some (.sd 0xFFFC#16 1#5 2#5) := by decide

/-- Decoding of the transfers, on the example words of R271 to R276. -/
theorem test_decode_transfers :
    decodeTableWord 32 0x03FFFFFE = some (.j 0x3FFFFFE#26) ∧
    decodeTableWord 32 0x04000004 = some (.jal 4#26) ∧
    decodeTableWord 32 0x13FFFFFC = some (.bf 0x3FFFFFC#26) ∧
    decodeTableWord 32 0x0C000002 = some (.bnf 2#26) ∧
    decodeTableWord 32 0x44001800 = some (.jr 3#5) ∧
    decodeTableWord 32 0x48001800 = some (.jalr 3#5) := by decide

/-- Decoding of the no-op, synchronisation and system words, on the example words of R290 to R297. -/
theorem test_decode_system :
    decodeTableWord 32 0x15000001 = some (.nop 1#16) ∧
    decodeTableWord 32 0x22000000 = some (.msync) ∧
    decodeTableWord 32 0x22800000 = some (.psync) ∧
    decodeTableWord 32 0x23000000 = some (.csync) ∧
    decodeTableWord 32 0x20000001 = some (.sys 1#16) ∧
    decodeTableWord 32 0x21000000 = some (.trap 0#16) ∧
    decodeTableWord 32 0x087FFFFF = some (.adrp 3#5 0x1FFFFF#21) ∧
    decodeTableWord 32 0xDDFFCCFF = some (.endOfTest) := by decide
/-- Words the spec calls illegal (R107, R293; table 2.1 of 95_test_vectors.md). -/
theorem test_decode_illegal :
    decodeTableWord 32 0x22000001 = none ∧ decodeTableWord 32 0x14000000 = none ∧ decodeTableWord 32 0xE061100D = some (.extws 3#5 1#5) ∧
    decodeTableWord 32 0xE061108D = none ∧ decodeTableWord 32 0xBCC10000 = none ∧ decodeTableWord 32 0xFFFFFFFF = none ∧
    decodeTableWord 32 0 = some (.j 0#26) := by decide

/-! ### One instruction, from the examples of the rules -/

/-- R171, R172, R181 to R185. -/
theorem test_arithmetic :
    (after (exec (.addi 2#5 1#5 10#16) (regs 5#32 0#32))).map (·.readReg 2#5) = some 15#32 ∧
    (after (exec (.addi 1#5 1#5 0xFFFC#16) (regs 0x100#32 0#32))).map (·.readReg 1#5) = some 0xFC#32 ∧
    (after (exec (.ori 3#5 4#5 0x8000#16) (regs 0#32 0#32))).map (·.readReg 3#5) = some 0xFFFF8000#32 ∧
    (after (exec (.add 3#5 1#5 2#5) (regs 0xFFFFFFFF#32 1#32))).map (·.readReg 3#5) = some 0#32 ∧
    (after (exec (.sub 3#5 1#5 2#5) (regs 5#32 3#32))).map (·.readReg 3#5) = some 2#32 ∧
    (after (exec (.or 3#5 1#5 2#5) (regs 0x0F0F0000#32 0x00FF00FF#32))).map (·.readReg 3#5) = some 0x0FFF00FF#32 ∧
    (after (exec (.addi 0#5 1#5 1#16) (regs 5#32 0#32))).map (·.readReg 0#5) = some 0#32 := by decide

/-- R173, R175, R179, R184, R185: amounts modulo 16. -/
theorem test_shifts :
    (after (exec (.slli 7#5 1#5 20#6) (regs 0x81234567#32 0#32))).map (·.readReg 7#5) = some 0x12345670#32 ∧
    (after (exec (.srai 6#5 1#5 4#6) (regs 0x81234567#32 0#32))).map (·.readReg 6#5) = some 0xF8123456#32 ∧
    (after (exec (.srai 6#5 1#5 16#6) (regs 0x81234567#32 0#32))).map (·.readReg 6#5) = some 0x81234567#32 ∧
    (after (exec (.sll 3#5 1#5 2#5) (regs 1#32 0xFFFFFFFF#32))).map (·.readReg 3#5) = some 0x8000#32 ∧
    (after (exec (.sra 3#5 1#5 2#5) (regs 0x80000000#32 4#32))).map (·.readReg 3#5) = some 0xF8000000#32 ∧
    (after (exec (.movhi 1#5 0x8123#16) (regs 7#32 0#32))).map (·.readReg 1#5) = some 0x81230000#32 := by decide

/-- R174, R186, R199, R219: stubs. -/
theorem test_stubs :
    (after (exec (.and 2#5 1#5 1#5) (regs 5#32 7#32))).map (·.readReg 2#5) = some 0#32 ∧
    (after (exec (.div 2#5 1#5 0#5) (regs 5#32 7#32))).map (·.readReg 2#5) = some 0#32 ∧
    (after (exec (.srli 2#5 1#5 1#6) (regs 5#32 7#32))).map (·.readReg 2#5) = some 0#32 ∧
    (after (exec (.sfgtu 1#5 2#5) (regs 9#32 7#32))).map (·.flag) = some false ∧
    (after (exec (.adrp 2#5 1#21) (regs 5#32 7#32))).map (·.readReg 2#5) = some 7#32 := by decide

/-- R211 to R218: the signed comparisons at their corners. -/
theorem test_compares :
    (after (exec (.sfeq 1#5 2#5) (regs 5#32 5#32))).map (·.flag) = some true ∧
    (after (exec (.sfne 1#5 2#5) (regs 5#32 3#32))).map (·.flag) = some true ∧
    (after (exec (.sfges 1#5 2#5) (regs 0xFFFFFFFF#32 0#32))).map (·.flag) = some false ∧
    (after (exec (.sfges 1#5 2#5) (regs 0#32 0x80000000#32))).map (·.flag) = some true ∧
    (after (exec (.sfles 1#5 2#5) (regs 0x7FFFFFFF#32 0x80000000#32))).map (·.flag) = some false ∧
    (after (exec (.sfeqi 1#5 0xFFFF#16) (regs 0xFFFF#32 0#32))).map (·.flag) = some false ∧
    (after (exec (.sfnei 1#5 0xFFFF#16) (regs 0#32 0#32))).map (·.flag) = some true ∧
    (after (exec (.sfgesi 1#5 0xFFFF#16) (regs 0xFFFFFFFE#32 0#32))).map (·.flag) = some false ∧
    (after (exec (.sflesi 1#5 0xFFFF#16) (regs 0#32 0#32))).map (·.flag) = some false := by decide

/-- R242 to R249, R256: loads of the bytes 81 23 45 67 at 0x100. -/
theorem test_loads :
    (after (exec (.lwz 2#5 1#5 0xFFFC#16) (atData 0#32 0x104#32 0#32))).map (·.readReg 2#5) = some 0x81234567#32 ∧
    (after (exec (.lbz 2#5 1#5 0xFFFC#16) (atData 0#32 0x104#32 0#32))).map (·.readReg 2#5) = some 0x81#32 ∧
    (after (exec (.lbs 2#5 1#5 0xFFFC#16) (atData 0#32 0x104#32 0#32))).map (·.readReg 2#5) = some 0xFFFFFF81#32 ∧
    (after (exec (.lhs 2#5 1#5 0xFFFC#16) (atData 0#32 0x104#32 0#32))).map (·.readReg 2#5) = some 0x81#32 ∧
    (after (exec (.ld 2#5 1#5 0#16) (atData 0#32 0xF8#32 0#32))).map (·.readReg 2#5) = some 0#32 ∧
    faultOf (exec (.lwz 2#5 1#5 0xFFFC#16) (atData 0#32 0x106#32 0#32)) = some (.dataAccessFailure 0x102#32) ∧
    faultOf (exec (.ld 2#5 1#5 0#16) (atData 0#32 0x104#32 0#32)) = some (.dataAccessFailure 0x104#32) := by decide

/-- R250 to R255: the bytes stores leave. -/
theorem test_stores :
    (after (exec (.sw 0xFFFC#16 1#5 2#5) (regs 0x104#32 0x81234567#32))).map (·.mem) =
      some [(0x100, 0x81#8), (0x101, 0x23#8), (0x102, 0x45#8), (0x103, 0x67#8)] ∧
    (after (exec (.sh 0xFFFC#16 1#5 2#5) (regs 0x104#32 0x81234567#32))).map (·.mem) = some [(0x100, 0x67#8)] ∧
    (after (exec (.sd 0xFFFC#16 1#5 2#5) (regs 0x104#32 0x81234567#32))).map (·.mem) =
      some [(0x104, 0x81#8), (0x105, 0x23#8), (0x106, 0x45#8), (0x107, 0x67#8)] ∧
    (after (exec (.sb 0#16 1#5 0#5) (atData 0#32 0x100#32 0#32))).map (·.mem) =
      some [(0x101, 0x23#8), (0x102, 0x45#8), (0x103, 0x67#8)] := by decide

/-- R271 to R276: targets, the link and the ignored field of `l.jr`. -/
theorem test_transfers :
    (after (exec (.j 3#26) (atData 0x104#32 0#32 0#32))).map (fun t => (t.npc, t.ds)) = some (0x110#32, 1) ∧
    (after (exec (.jal 4#26) (atData 8#32 0#32 0#32))).map (fun t => (t.npc, t.readReg 9#5)) = some (0x18#32, 0x10#32) ∧
    (after (exec (.bf 0x3FFFFFC#26) { atData 0x30#32 0#32 0#32 with flag := true })).map (·.npc) = some 0x20#32 ∧
    (after (exec (.bf 0x3FFFFFC#26) (atData 0x30#32 0#32 0#32))).map (fun t => (t.npc, t.ds)) = some (0#32, 0) ∧
    (after (exec (.bnf 2#26) (atData 0x10#32 0#32 0#32))).map (·.npc) = some 0x18#32 ∧
    (after (exec (.jr 3#5) ((atData 0x40#32 0#32 0#32).hostSetRegister 9#5 0xFFFFFFD0#32))).map (·.npc) = some 0x10#32 ∧
    (after (exec (.jalr 3#5) ((atData 0x40#32 0#32 0#32).hostSetRegister 3#5 0x20#32))).map
      (fun t => (t.npc, t.readReg 9#5)) = some (0x60#32, 0#32) := by decide

/-- R297: `END` in both modes, at the first fetch. -/
theorem test_end :
    (after (step (boot false [0xDDFFCCFF#32]))).map (fun t => (t.status, t.pc, t.nCycles)) = some (.ended, 0#32, 1) ∧
    (after (step (boot true [0xDDFFCCFF#32]))).map (fun t => (t.status, t.pc, t.nCycles)) = some (.ended, 0#32, 1) := by
  decide

/-- R380, R383: the set-up through the bus, over the memory there is; a refused request of the image is seen. -/
theorem test_hostSetUp :
    State.reset.hostLoadWords 0 [0x9C41000A#32, 1#32] = some (boot false [0x9C41000A#32, 1#32]) ∧
    ((atData 0#32 7#32 0#32).hostSetUp true Config.endWordDefault Config.busDefault [(0, bytesOfWord 0xDDFFCCFF#32)] [(3#5, 9#32)] 4#32).map
      (fun t => (t.pc, t.readReg 1#5, t.readReg 3#5, t.mem.length, t.pipelined)) = some (4#32, 0#32, 9#32, 8, true) ∧
    (State.reset.hostWrite 2 (bytesOfWord 1#32)).isNone = true ∧ (State.reset.hostLoad 0xFFFFFFFF [1#8, 2#8]).isNone = true ∧
    (State.reset.hostReset false 0#32 (.ram { naturalAlignment := true, absent := [], readOnly := [⟨0, 8⟩] })
      |>.hostLoadWords 4 [1#32]).isNone = true := by decide

/-- The row's own interface: the word placed is the one the next step runs. -/
theorem test_withFetchWord :
    (after (step (State.reset.withFetchWord 32 0x9C41000A))).map (·.readReg 2#5) = some 10#32 ∧
    (after (step (State.reset.withFetchWord 32 0x18208123))).map (·.readReg 1#5) = some 0x81230000#32 := by decide

/-! ### Witnesses: for every statement with hypotheses a case that meets them, one per clause -/

/-- A pipelined core in its second cycle, with `l.addi r2,r1,10` in IF/ID and the words given behind it. -/
def decoding (w : Word) (rest : List Word) : State :=
  { boot true (w :: rest) with pc := 4#32, nCycles := 1, ifid := { valid := true, fields := { pc := 0#32, iw := w } } }

/-- `decoding` has the invariant when its word is not `END_WORD`. -/
theorem decoding_inv (w : Word) (rest : List Word) (hm : (boot true (w :: rest)).mem.wf = true)
    (hw : w ≠ Config.endWordDefault) : Inv (decoding w rest) where
  memory := hm
  ifid := by rintro l ⟨⟩; exact hw
  idex := by rintro l ⟨⟩
  exm := by rintro l ⟨⟩
  mwb := by rintro l ⟨⟩
  endedFetched := by rintro ⟨⟩
  fetchStopped := by rintro ⟨⟩
  endedDrained := by rintro ⟨⟩
  pcFollows := by rintro - l ⟨⟩; rfl
  pipelinedCounts := fun _ => rfl
  resident := by rintro ⟨⟩
  runningCounts := by rintro ⟨⟩
  endedCounts := by rintro ⟨⟩

/-- The reset state of either mode has the invariant. -/
theorem reset_inv : Inv State.reset where
  memory := rfl
  ifid := by rintro l ⟨⟩
  idex := by rintro l ⟨⟩
  exm := by rintro l ⟨⟩
  mwb := by rintro l ⟨⟩
  endedFetched := by rintro ⟨⟩
  fetchStopped := by rintro ⟨⟩
  endedDrained := by rintro ⟨⟩
  pcFollows := by rintro ⟨⟩
  pipelinedCounts := by rintro ⟨⟩
  resident := fun _ _ => trivial
  runningCounts := fun _ _ => ⟨rfl, rfl⟩
  endedCounts := by rintro - ⟨⟩

/-- What `boot` builds is a start state. -/
theorem boot_start (p : Bool) (words : List Word) (hm : (boot p words).mem.wf = true) : StartState (boot p words) :=
  ⟨hm, ⟨rfl, rfl, rfl, rfl⟩, ⟨rfl, rfl, rfl, rfl⟩, ⟨rfl, rfl⟩, ⟨rfl, rfl, rfl⟩⟩

/-- The state of `decoding` with a word load in EX/M from the address `a`. -/
def accessing (m : Mnemonic) (a : Word) : State :=
  { decoding 0x15000000#32 [] with
    nIssued := 1
    exm :=
      { valid := true
        fields := { pc := 0#32, instr := m, ctl := controlBundle m, aluOut := a, rs2Val := 0#32, rd := 2#5, link := 0#32 } } }

/-- `accessing` has the invariant for a load or store. -/
theorem accessing_inv (m : Mnemonic) (a : Word) (h : m = .lwz ∨ m = .sw) : Inv (accessing m a) where
  memory := by show (decoding 0x15000000#32 []).mem.wf = true; decide
  ifid := by rintro l ⟨⟩; show (0x15000000#32 : Word) ≠ Config.endWordDefault; decide
  idex := by rintro l ⟨⟩
  exm := by
    rintro l ⟨⟩
    rcases h with rfl | rfl <;> exact ⟨nofun, rfl, rfl, nofun, nofun, fun _ h => by cases h⟩
  mwb := by rintro l ⟨⟩
  endedFetched := by rintro ⟨⟩
  fetchStopped := by rintro ⟨⟩
  endedDrained := by rintro ⟨⟩
  pcFollows := by rintro - l ⟨⟩; rfl
  pipelinedCounts := fun _ => rfl
  resident := by rintro ⟨⟩
  runningCounts := by rintro ⟨⟩
  endedCounts := by rintro ⟨⟩

theorem witness_DecodeEncode :
    encode Config.endWordDefault (.addi 2#5 1#5 10#16) ≠ Config.endWordDefault ∧
    encode 0#32 (.sh 0x7CFF#16 31#5 25#5) ≠ 0#32 ∧ encode 0#32 .endOfTest = 0#32 := by decide

theorem witness_WellFormedRoundTrip :
    Instr.wellFormed (.addi 31#5 31#5 0xFFFF#16) = true ∧ Instr.wellFormed (.sh 0x7CFF#16 31#5 25#5) = false := by decide

theorem witness_DecoderIsTheOpcodeTable :
    (0xE061110D#32 : Word) ≠ Config.endWordDefault ∧ (0xDDFFCCFE#32 : Word) ≠ Config.endWordDefault ∧
    resolve Config.endWordDefault 0xDDFFCCFE#32 = .ok .sh ∧ inOpcodeRow Config.endWordDefault .sh 0xDDFFCCFF#32 = true := by
  exact ⟨by decide, by decide, rfl, by decide⟩

theorem witness_ReservedBitsAreIgnored :
    (0xE06114F0#32 : Word) ≠ Config.endWordDefault ∧
    decode Config.endWordDefault 0xE06114F0#32 = .ok (.add 3#5 1#5 2#5) ∧
    (0xE0611000#32 : Word) &&& significantBits .add = 0xE06114F0#32 &&& significantBits .add := by
  exact ⟨by decide, rfl, by decide⟩

theorem witness_ImmediatesByType :
    instrType .addi ∈ [.typeI, .typeF, .noType, .typeR] ∧ instrType .sfeqi ∈ [.typeI, .typeF, .noType, .typeR] ∧
    instrType .macrc ∈ [.typeI, .typeF, .noType, .typeR] ∧ instrType .add ∈ [.typeI, .typeF, .noType, .typeR] ∧
    instrType .slli = .typeSH ∧ instrType .j = .typeJ ∧ instrType .sw = .typeS ∧
    getImmediate .addi 0x8000#32 = 0xFFFF8000#32 ∧ getImmediate .addi 0x7FFF#32 = 0x7FFF#32 ∧
    getImmediate .slli 0x20#32 = 0xFFFFFFE0#32 ∧ getImmediate .j 0x2000000#32 = 0xFE000000#32 ∧
    getImmediate .sw 0xD7E117FC#32 = 0xFFFFFFFC#32 ∧ getImmediate .adrp 0x087FFFFF#32 = 0xFFFFFFFF#32 ∧
    getImmediate .movhi 0x1820FFFF#32 = 0xFFFF#32 := by decide

theorem witness_StepRunsDecodedInstruction :
    (boot false [0x9C41000A#32]).status = .running ∧ (boot false [0x9C41000A#32]).pipelined = false ∧
    (boot false [0x9C41000A#32]).cursor = 0 ∧ (boot false [0x9C41000A#32]).fetchDone = false ∧
    (boot false [0x9C41000A#32]).busWord (boot false [0x9C41000A#32]).fetchAddress = some 0x9C41000A#32 ∧
    decode Config.endWordDefault 0x9C41000A#32 = .ok (.addi 2#5 1#5 10#16) :=
  ⟨by decide, by decide, by decide, by decide, by decide, rfl⟩

/-- The boundary of the address space, and a redirect that is due. -/
theorem witness_StepRunsDecodedInstruction_redirect :
    ({ boot false [0x9C41000A#32] with pc := 8#32, npc := 0xFFFFFFFC#32, ds := 2 } : State).fetchAddress = 0xFFFFFFFC#32 ∧
    (boot false [0x9C41000A#32]).busWord 0xFFFFFFFC#32 = some 0#32 ∧ decode Config.endWordDefault 0#32 = .ok (.j 0#26) :=
  ⟨by decide, by decide, rfl⟩

theorem witness_FetchAndDecodeFaults :
    faultOf (step ((boot false []).hostSetEntry 2#32)) = some (.instructionFetchFailure 2#32) ∧
    ((boot false []).hostSetEntry 2#32).busWord ((boot false []).hostSetEntry 2#32).fetchAddress = none ∧
    (boot false [0xFFFFFFFF#32]).busWord 0#32 = some 0xFFFFFFFF#32 ∧
    decode Config.endWordDefault 0xFFFFFFFF#32 = .error .primaryOpcode ∧
    faultOf (step (boot false [0xFFFFFFFF#32])) = some (.illegalInstruction 0#32 0xFFFFFFFF#32) ∧
    (boot false []).bus = Config.busDefault ∧ (boot false []).busWord 0xFFFFFFFF#32 = none :=
  ⟨by decide, by decide, by decide, rfl, by decide, rfl, by decide⟩

theorem witness_StoppedCoreStays :
    ({ State.reset with status := .ended } : State).status = .ended ∧
    (State.reset.recordFault (.dataAccessFailure 2#32)).status = .faulted (.dataAccessFailure 2#32) := by decide

theorem witness_StubsWriteZero :
    Instr.srli 2#5 1#5 4#6 ∈ [Instr.srli 2#5 1#5 4#6, .rori 2#5 1#5 4#6, .macrc 2#5] ∧
    (after (exec (.mulu 2#5 1#5 1#5) (regs 5#32 7#32))).map (·.readReg 2#5) = some 0#32 := by decide

theorem witness_StubComparesChangeNothing :
    (after (exec (.sfltsi 1#5 9#16) (regs 5#32 7#32))).map (·.flag) = some false ∧
    (after (exec (.sfgtu 1#5 2#5) { regs 5#32 7#32 with flag := true })).map (·.flag) = some true := by decide

theorem witness_NoEffectInstructions :
    (after (exec (.nop 0xFFFF#16) (regs 5#32 7#32))).map (·.pc) = some 4#32 ∧
    (after (exec (.adrp 31#5 0#21) (regs 5#32 7#32))).map (·.nRetired) = some 1 := by decide

/-- For WordLoads, ByteLoads and DoubleLoad. Accepted loads: in the middle and at the top of the address space; a byte at the last address. -/
theorem witness_Loads :
    (atData 0#32 0x104#32 0#32).busWord ((atData 0#32 0x104#32 0#32).effectiveAddress 1#5 0xFFFC#16) = some 0x81234567#32 ∧
    (regs 0#32 0#32).busWord ((regs 0#32 0#32).effectiveAddress 0#5 0xFFFC#16) = some 0#32 ∧
    (regs 0#32 0#32).busByte ((regs 0#32 0#32).effectiveAddress 0#5 0xFFFF#16) = some 0#8 ∧
    (regs 0#32 0#32).busLowWord ((regs 0#32 0#32).effectiveAddress 0#5 0xFFF8#16) = some 0#32 := by decide

/-- For WordAndByteStores and DoubleStore. Accepted stores, on a memory in canonical form. -/
theorem witness_Stores :
    (atData 0#32 0x104#32 0x81234567#32).mem.wf = true ∧ (regs 0#32 0#32).bus = .ram ram ∧
    ramAcceptsWrite ram ((atData 0#32 0x104#32 0#32).effectiveAddress 1#5 0xFFFC#16).toNat 4 = true ∧
    ramAcceptsWrite ram ((regs 0#32 0#32).effectiveAddress 0#5 0xFFFF#16).toNat 1 = true ∧
    ramAcceptsWrite ram ((regs 0#32 0#32).effectiveAddress 0#5 0xFFF8#16).toNat 8 = true ∧
    (busWrite (regs 0#32 0#32).bus [] ((regs 0#32 0#32).effectiveAddress 0#5 0xFFFC#16).toNat (bytesOfWord 1#32)).isSome = true ∧
    (busWrite (regs 0#32 0#32).bus [] ((regs 0#32 0#32).effectiveAddress 0#5 0xFFFF#16).toNat [1#8]).isSome = true ∧
    (busWrite (regs 0#32 0#32).bus [] ((regs 0#32 0#32).effectiveAddress 0#5 0xFFF8#16).toNat
      ([0#8, 0#8, 0#8, 0#8] ++ bytesOfWord 1#32)).isSome = true := by decide

/-- Refused requests of each size; a one-byte request only where the bus has no such address. -/
theorem witness_RefusedRequestFaults :
    (regs 1#32 0#32).busWord ((regs 1#32 0#32).effectiveAddress 1#5 0#16) = none ∧
    (regs 4#32 0#32).busLowWord ((regs 4#32 0#32).effectiveAddress 1#5 0#16) = none ∧
    busWrite (regs 3#32 0#32).bus [] ((regs 3#32 0#32).effectiveAddress 1#5 0#16).toNat (bytesOfWord 0#32) = none ∧
    busWrite (regs 4#32 0#32).bus [] ((regs 4#32 0#32).effectiveAddress 1#5 0#16).toNat
      ([0#8, 0#8, 0#8, 0#8] ++ bytesOfWord 0#32) = none ∧
    ({ regs 5#32 0#32 with bus := .ram { ram with absent := [⟨5, 6⟩] } } : State).busByte 5#32 = none ∧
    busWrite (.ram { ram with readOnly := [⟨5, 6⟩] }) [] 5 [0#8] = none ∧
    (∀ n ∈ [1, 4, 8], (List.replicate n (0#8 : Byte)).length ∈ [1, 4, 8]) := by decide

theorem witness_Branches : ({ State.reset with flag := true } : State).flag = true ∧ State.reset.flag = false := by decide

theorem witness_OnlyTheNamedInstructionsWrite :
    (∃ t, exec (.sfeq 1#5 2#5) (regs 5#32 5#32) = .next t ∧ t.flag = true) ∧
    (∃ t, exec (.addi 2#5 1#5 1#16) (regs 5#32 5#32) = .next t ∧ t.flag = false ∧ t.mem = [] ∧ t.npc = 0#32) ∧
    (∃ t, exec .endOfTest (regs 5#32 5#32) = .next t ∧ t.status = .ended) := by
  exact ⟨⟨_, rfl, by decide⟩, ⟨_, rfl, by decide⟩, ⟨_, rfl, by decide⟩⟩

theorem witness_ExecLeavesLatchesAndCountsCycles :
    (∃ t, exec (.nop 0#16) (regs 5#32 5#32) = .next t ∧ t.nCycles = 5) ∧
    (∃ t, exec .endOfTest (regs 5#32 5#32) = .next t ∧ t.nCycles = 1) :=
  ⟨⟨_, rfl, by decide⟩, ⟨_, rfl, by decide⟩⟩

theorem witness_AlignmentKept :
    Instr.mnemonic (.j 1#26) ∉ [Mnemonic.jr, .jalr] ∧ (atData 0xFFFFFFFC#32 0#32 0#32).pc.toNat % 4 = 0 ∧
    (atData 0xFFFFFFFC#32 0#32 0#32).npc.toNat % 4 = 0 ∧ ∃ t, exec (.j 1#26) (atData 0xFFFFFFFC#32 0#32 0#32) = .next t := by
  exact ⟨by decide, by decide, by decide, ⟨_, rfl⟩⟩

theorem witness_WriteThenRead :
    (regs 0#32 0#32).mem.wf = true ∧ (regs 0#32 0#32).bus = .ram ram ∧
    (∃ m, (regs 0#32 0#32).memWrite 0xFFFFFFFF#32 1 0x167#64 = .ok m) ∧
    (∃ m, (regs 0#32 0#32).memWrite 2#32 2 0x10067#64 = .ok m) ∧
    (∃ m, (regs 0#32 0#32).memWrite 0xFFFFFFFC#32 4 0x181234567#64 = .ok m) ∧
    (∃ m, (regs 0#32 0#32).memWrite 8#32 8 0x1122334481234567#64 = .ok m) := by
  exact ⟨by decide, rfl, ⟨_, rfl⟩, ⟨_, rfl⟩, ⟨_, rfl⟩, ⟨_, rfl⟩⟩

/-- A read, a write and a RAM bus; no address of the default bus' last clause is special. -/
theorem witness_BusAnswers :
    busRead Config.busDefault [] 0xFFFFFFFE 2 = some [0#8, 0#8] ∧ Memory.wf [(4, 1#8)] = true ∧
    busWrite Config.busDefault [(4, 1#8)] 4 [0#8] = some [] ∧ State.reset.bus = .ram ram ∧
    (busRead Config.busDefault [] 0x100000000 4).isSome = false := by decide

/-- For ResetHasInvariant: a set-up that the bus accepts, with a register given two values, r0 given one and the other registers none. -/
theorem witness_ResetHasInvariant :
    ∃ t, State.reset.hostSetUp true Config.endWordDefault Config.busDefault [(0, bytesOfWord 0x15000000#32), (9, [1#8])]
        ([(31#5, 4#32)] ++ (31#5, 5#32) :: [(0#5, 6#32)]) 0#32 = some t ∧
      t.readReg 31#5 = 5#32 ∧ t.readReg 0#5 = 0#32 ∧ t.readReg 1#5 = 0#32 := ⟨_, rfl, by decide, by decide, by decide⟩

theorem witness_CanonicalMemoryIsUnique :
    Memory.wf [(0x100, 0x81#8), (0xFFFFFFFF, 1#8)] = true ∧
    (∀ a, Memory.read [(0x100, 0x81#8), (0xFFFFFFFF, 1#8)] a = Memory.read [(0x100, 0x81#8), (0xFFFFFFFF, 1#8)] a) :=
  ⟨by decide, fun _ => rfl⟩

theorem witness_LoadAfterStore :
    (regs 0x104#32 0x81234567#32).bus = .ram ram ∧ (regs 0x104#32 0x81234567#32).mem.wf = true ∧
    (∃ t, exec (.sw 0xFFFC#16 1#5 2#5) (regs 0x104#32 0x81234567#32) = .next t ∧
      t.effectiveAddress 0#5 0x100#16 = (regs 0x104#32 0x81234567#32).effectiveAddress 1#5 0xFFFC#16) ∧
    (∃ t, exec (.sd 0xFFFC#16 1#5 2#5) (regs 0x104#32 0x81234567#32) = .next t ∧
      t.effectiveAddress 0#5 0x100#16 = (regs 0x104#32 0x81234567#32).effectiveAddress 1#5 0xFFFC#16) ∧
    (∃ t, exec (.sb 0#16 1#5 2#5) (regs 0xFFFFFFFF#32 0x81#32) = .next t ∧
      t.effectiveAddress 0#5 0xFFFF#16 = (regs 0xFFFFFFFF#32 0x81#32).effectiveAddress 1#5 0#16) := by
  exact ⟨rfl, by decide, ⟨_, rfl, by decide⟩, ⟨_, rfl, by decide⟩, ⟨_, rfl, by decide⟩⟩

/-- For InvariantKeptByStep and InvariantKeptByCycle, in both modes. -/
theorem witness_InvariantKept :
    Inv State.reset ∧ (∃ t, step State.reset = .next t) ∧ (∃ t, cycle State.reset = .next t) ∧
    Inv (decoding 0x9C41000A#32 [0xDDFFCCFF#32]) ∧ (∃ t, step (decoding 0x9C41000A#32 [0xDDFFCCFF#32]) = .next t) ∧
    (∃ t, cycle (decoding 0x9C41000A#32 [0xDDFFCCFF#32]) = .next t) :=
  ⟨reset_inv, ⟨_, rfl⟩, ⟨_, rfl⟩, decoding_inv _ _ (by decide) (by decide), ⟨_, rfl⟩, ⟨_, rfl⟩⟩

theorem witness_InvalidConfigurationIsUnreachable :
    Inv (accessing .lwz 2#32) ∧ (accessing .lwz 2#32).status = .running ∧ faultOf (step (accessing .lwz 2#32)) = some (.dataAccessFailure 2#32) :=
  ⟨accessing_inv _ _ (Or.inl rfl), rfl, by decide⟩

/-- The three clauses: an instruction that completes, the end-of-test word, a fault in the second and one in the fourth cycle. -/
theorem witness_FiveCyclesAreOneStep :
    (boot false [0x9C41000A#32]).status = .running ∧ (boot false [0x9C41000A#32]).cursor = 0 ∧
    (∃ t, step (boot false [0x9C41000A#32]) = .next t ∧ t.status = .running) ∧
    (∃ t, step (boot false [0xDDFFCCFF#32]) = .next t ∧ t.status = .ended) ∧
    step (boot false [0xFFFFFFFF#32]) = .fault (.illegalInstruction 0#32 0xFFFFFFFF#32) ∧
    step (boot false [0x84400002#32]) = .fault (.dataAccessFailure 2#32) := by
  exact ⟨rfl, rfl, ⟨_, rfl, by decide⟩, ⟨_, rfl, by decide⟩, rfl, rfl⟩

theorem witness_WholeRunsAgree :
    StartState (boot false [0x9C41000A#32, 0xDDFFCCFF#32]) ∧ (boot false [0x9C41000A#32, 0xDDFFCCFF#32]).pipelined = false ∧
    (∃ t, Host.Core.run Sys2Proof.core 2 (boot false [0x9C41000A#32, 0xDDFFCCFF#32]) = .next t ∧ State.status t = .ended) :=
  ⟨boot_start _ _ (by decide), rfl, ⟨_, rfl, by decide⟩⟩

theorem witness_PipelinedLatchesAdvance :
    (decoding 0x9C41000A#32 [0x15000000#32]).status = .running ∧ (decoding 0x9C41000A#32 [0x15000000#32]).pipelined = true ∧
    (∃ t, cycle (decoding 0x9C41000A#32 [0x15000000#32]) = .next t ∧ t.idex.valid = true) :=
  ⟨rfl, rfl, ⟨_, rfl, by decide⟩⟩

/-- Both modes: in the pipelined one the cycle that decodes, in the other the cycle with the cursor at decode. -/
theorem witness_DecodeReadsOldRegisters :
    (∃ t, cycle (decoding 0x9C41000A#32 []) = .next t) ∧ (decoding 0x9C41000A#32 []).ifid.out = some ⟨0#32, 0x9C41000A#32⟩ ∧
    (∃ t, cycle (boot false [0x9C41000A#32]) = .next t ∧ t.status = .running ∧ t.cursor = 1 ∧ t.ifid.out = some ⟨0#32, 0x9C41000A#32⟩ ∧
      ∃ u, cycle t = .next u) := by
  exact ⟨⟨_, rfl⟩, rfl, ⟨_, rfl, by decide, by decide, by decide, ⟨_, rfl⟩⟩⟩

/-- A register-writing instruction, a store, a compare and a taken transfer, each four cycles long. -/
theorem witness_PipelinedInstructionHasItsMeaning :
    (∀ w ∈ [0x9C41000A#32, 0xD4001100#32, 0xE4011000#32, 0x00000003#32], Inv (decoding w [0x15000000#32, 0x15000000#32, 0xDDFFCCFF#32]) ∧
      ∃ i, decode Config.endWordDefault w = .ok i ∧
        ∃ s1 s2 s3 s4, cycle (decoding w [0x15000000#32, 0x15000000#32, 0xDDFFCCFF#32]) = .next s1 ∧ cycle s1 = .next s2 ∧
          cycle s2 = .next s3 ∧ cycle s3 = .next s4) := by
  intro w hw
  simp only [List.mem_cons, List.not_mem_nil, or_false] at hw
  rcases hw with rfl | rfl | rfl | rfl
  all_goals exact ⟨decoding_inv _ _ (by decide) (by decide), _, rfl, _, _, _, _, rfl, rfl, rfl, rfl⟩

/-- Both clauses on the slot: a no-op in it, and a taken jump in it. -/
theorem witness_PipelinedDelaySlot :
    Inv (decoding 0x00000003#32 [0x15000000#32]) ∧ resolve Config.endWordDefault 0x00000003#32 = .ok .j ∧
    transferTaken .j false = true ∧ (decoding 0x00000003#32 [0x15000000#32]).ds ≠ 2 ∧
    (∃ t u, cycle (decoding 0x00000003#32 [0x15000000#32]) = .next t ∧ t.fetchDone = false ∧ cycle t = .next u ∧ u.fetchDone = false ∧
      u.ds = 0 ∧ u.fetchAddress = 16#32) ∧
    (∃ t u, cycle (decoding 0x00000003#32 [0x00000004#32]) = .next t ∧ t.fetchDone = false ∧ cycle t = .next u ∧ u.fetchDone = false ∧
      u.ds = 2) :=
  ⟨decoding_inv _ _ (by decide) (by decide), rfl, rfl, by decide, ⟨_, _, rfl, by decide, rfl, by decide, by decide, by decide⟩,
    ⟨_, _, rfl, by decide, rfl, by decide, by decide⟩⟩

/-- The four clauses: a taken transfer, and a plain instruction at each value of `DS`. -/
theorem witness_NonPipelinedDelaySlot :
    (∃ t, step (boot false [0x00000003#32]) = .next t ∧ t.ds = 1 ∧ t.fetchAddress = 4#32) ∧
    (∀ d : Fin 3, ∃ t, step ({ boot false [0x15000000#32] with ds := d } : State) = .next t) ∧
    decode Config.endWordDefault 0x15000000#32 = .ok (.nop 0#16) ∧ transferTaken (Instr.mnemonic (.nop 0#16)) false = false := by
  refine ⟨⟨_, rfl, by decide⟩, fun d => ?_, rfl, rfl⟩
  match d with
  | 0 => exact ⟨_, rfl⟩
  | 1 => exact ⟨_, rfl⟩
  | 2 => exact ⟨_, rfl⟩

theorem witness_FetchReadsMemoryBeforeTheStore :
    ∃ t, cycle (accessing .sw 4#32) = .next t ∧ t.ifid.out = some ⟨4#32, 0#32⟩ ∧ (accessing .sw 4#32).status = .running ∧
      (accessing .sw 4#32).pipelined = true := by
  exact ⟨_, rfl, by decide, rfl, rfl⟩

/-- In both modes: no instruction in the latch concerned, one in M/WB, and decode with and without a taken transfer. -/
theorem witness_StageWriters :
    (∃ t, cycle (boot true [0x15000000#32]) = .next t) ∧
    (∃ t, cycle (boot false [0x15000000#32]) = .next t) ∧
    (boot true [0x15000000#32]).ifid.valid = false ∧ (boot true [0x15000000#32]).exm.valid = false ∧ (boot true [0x15000000#32]).mwb.valid = false ∧
    (boot false [0x15000000#32]).cursor = 0 ∧
    (∃ s t l, cycles 4 (boot true [0x9C41000A#32]) = .next s ∧ s.mwb.out = some l ∧ writeEnabled l = true ∧ cycle s = .next t) ∧
    (∃ s t l, cycles 4 (boot false [0xD4001100#32]) = .next s ∧ s.mwb.out = some l ∧ writeEnabled l = false ∧ s.cursor = 4 ∧
      cycle s = .next t) ∧
    (∃ t, cycle (decoding 0x00000003#32 [0x15000000#32]) = .next t ∧ t.ds = 2) ∧
    (∃ t, cycle (decoding 0x15000000#32 [0x15000000#32]) = .next t ∧ t.ds = 0) ∧
    (∃ s t, cycle (boot false [0x00000003#32]) = .next s ∧ s.cursor = 1 ∧ cycle s = .next t ∧ t.pc = s.pc ∧ t.ds = 1) := by
  exact ⟨⟨_, rfl⟩, ⟨_, rfl⟩, rfl, rfl, rfl, rfl, ⟨_, _, _, rfl, rfl, rfl, rfl⟩, ⟨_, _, _, rfl, rfl, rfl, rfl, rfl⟩,
    ⟨_, rfl, by decide⟩, ⟨_, rfl, by decide⟩, ⟨_, _, rfl, by decide, rfl, by decide, by decide⟩⟩

/-- The end-of-test word at the first fetch of either mode, and a cycle of a draining pipeline. -/
theorem witness_Termination :
    (∀ p : Bool, ∃ t, cycle (boot p [0xDDFFCCFF#32]) = .next t ∧ t.status = .ended ∧ t.fetchDone = true) ∧
    (∃ t, cycle (decoding 0x9C41000A#32 [0xDDFFCCFF#32]) = .next t ∧ t.status = .running ∧ t.fetchDone = true ∧
      ∃ u, cycle t = .next u ∧ u.fetchDone = true) := by
  refine ⟨fun p => ?_, ⟨_, rfl, by decide, by decide, ⟨_, rfl, by decide⟩⟩⟩
  cases p
  · exact ⟨_, rfl, by decide, by decide⟩
  · exact ⟨_, rfl, by decide, by decide⟩

/-- The clauses: a refused fetch, an illegal word in decode, a refused load and a refused store. -/
theorem witness_PipelinedFaultOrder :
    faultOf (cycle ((boot true []).hostSetEntry 2#32)) = some (.instructionFetchFailure 2#32) ∧
    Inv (decoding 0xFFFFFFFF#32 []) ∧ resolve Config.endWordDefault 0xFFFFFFFF#32 = .error .primaryOpcode ∧
    faultOf (cycle (decoding 0xFFFFFFFF#32 [])) = some (.illegalInstruction 0#32 0xFFFFFFFF#32) ∧
    Inv (accessing .lwz 2#32) ∧ Inv (accessing .sw 2#32) ∧
    busRead Config.busDefault [] (2#32 : Word).toNat (controlBundle .lwz).size = none ∧
    busWrite Config.busDefault [] (2#32 : Word).toNat (toBigEndian (controlBundle .sw).size ((0#32 : Word).setWidth 64)) = none ∧
    faultOf (cycle (accessing .sw 2#32)) = some (.dataAccessFailure 2#32) :=
  ⟨by decide, decoding_inv _ _ (by decide) (by decide), rfl, by decide, accessing_inv _ _ (Or.inl rfl),
    accessing_inv _ _ (Or.inr rfl), by decide, by decide, by decide⟩

theorem witness_FirstCycleCounters :
    StartState (boot true [0x15000000#32]) ∧ (boot true [0x15000000#32]).pipelined = true ∧
    (∃ u, cycle (boot true [0x15000000#32]) = .next u ∧ u.fetchDone = false) ∧
    (∀ k, k ≤ 5 → ∃ t, cycles k (boot true [0x15000000#32]) = .next t) := by
  refine ⟨boot_start _ _ (by decide), rfl, ⟨_, rfl, by decide⟩, fun k hk => ?_⟩
  interval_cases k <;> exact ⟨_, rfl⟩

theorem witness_PipelineTimingKept :
    StartState (boot true [0x15000000#32]) ∧
    ∃ s t, cycle (boot true [0x15000000#32]) = .next s ∧ s.pipelined = true ∧ PipelineTiming s ∧ cycle s = .next t := by
  refine ⟨boot_start _ _ (by decide), _, _, rfl, rfl, ?_, rfl⟩
  exact ⟨by decide, by decide, by decide, by decide, by decide, by decide, by decide⟩

/-- Runs that end: of no instruction and of one, in either mode. -/
theorem witness_CycleCounts :
    (∀ p : Bool, StartState (boot p [0xDDFFCCFF#32]) ∧ ∃ t, EndsIn (boot p [0xDDFFCCFF#32]) t) ∧
    (∀ p : Bool, StartState (boot p [0x15000000#32, 0xDDFFCCFF#32]) ∧ ∃ t, EndsIn (boot p [0x15000000#32, 0xDDFFCCFF#32]) t) := by
  refine ⟨fun p => ?_, fun p => ?_⟩
  · cases p
    · exact ⟨boot_start _ _ (by decide), _, 1, rfl, by decide⟩
    · exact ⟨boot_start _ _ (by decide), _, 1, rfl, by decide⟩
  · cases p
    · exact ⟨boot_start _ _ (by decide), _, 6, rfl, by decide⟩
    · exact ⟨boot_start _ _ (by decide), _, 5, rfl, by decide⟩

end Sys2Proof.Tests
end

/-! PROOFS. The ALU's arithmetic, logic, equality and constants (40_alu_and_control.md R121 to R124, R128, R129, R132, R133) and the
control signals of the memory stage (R142, R144, R145). -/

namespace Sys2Proof.Machine

/-! ### What the ALU computes for each tag -/

@[simp] theorem aluEval_add (a b : Word) : aluEval .add a b = a + b := rfl

@[simp] theorem aluEval_sub (a b : Word) : aluEval .sub a b = a - b := rfl

@[simp] theorem aluEval_and (a b : Word) : aluEval .and a b = a &&& b := rfl

@[simp] theorem aluEval_or (a b : Word) : aluEval .or a b = a ||| b := rfl

@[simp] theorem aluEval_movhi (a b : Word) : aluEval .movhi a b = b := rfl

@[simp] theorem aluEval_nop (a b : Word) : aluEval .nop a b = 0#32 := rfl

/-- A comparison's result by a proposition that the computed bit decides. -/
theorem bitResult_eq_ite (c : Bool) (p : Prop) [Decidable p] (h : c = true ↔ p) :
    bitResult c = if p then 1#32 else 0#32 := by
  simp only [bitResult, h]

theorem aluEval_eq (a b : Word) : aluEval .eq a b = if a = b then 1#32 else 0#32 :=
  bitResult_eq_ite (a == b) (a = b) beq_iff_eq

theorem aluEval_neq (a b : Word) : aluEval .neq a b = if a ≠ b then 1#32 else 0#32 :=
  bitResult_eq_ite (a != b) (a ≠ b) bne_iff_ne

/-- The difference wraps: below zero it is taken from 2^32 (R122). -/
theorem toNat_sub_eq_emod (a b : Word) : ((a - b).toNat : Int) = ((a.toNat : Int) - b.toNat) % 2 ^ 32 := by
  have ha := a.isLt
  have hb := b.isLt
  rw [BitVec.toNat_sub]
  omega

/-- `AND` is in no row of the `alu_op` column: `l.and` itself is a stub with the tag `NOP` (R123, 90_conflicts.md C8). -/
theorem aluOpOf_ne_and (m : Mnemonic) : aluOpOf m ≠ .and := by
  unfold aluOpOf
  split <;> decide

/-- Settles O8: each clause is the bit-vector operation of its tag; the last is the `alu_op` table. -/
theorem aluArithmeticAndLogic : Obligations.AluArithmeticAndLogic := by
  unfold Obligations.AluArithmeticAndLogic
  simp only [aluEval_add, aluEval_sub, aluEval_and, aluEval_or]
  exact ⟨fun a b => ⟨BitVec.toNat_add a b, BitVec.toInt_add a b⟩, toNat_sub_eq_emod,
    fun _ _ _ => BitVec.getLsbD_and, fun _ _ _ => BitVec.getLsbD_or, aluOpOf_ne_and⟩

/-- Settles O10, from the ALU's equation for each of the four tags. -/
theorem aluEqualityAndConstants : Obligations.AluEqualityAndConstants := fun a b =>
  ⟨aluEval_eq a b, aluEval_neq a b, aluEval_movhi a b, aluEval_nop a b⟩

/-! ### The control signals of the memory stage -/

@[simp] theorem controlBundle_memMode (m : Mnemonic) : (controlBundle m).memMode = memModeOf m := rfl

@[simp] theorem controlBundle_size (m : Mnemonic) : (controlBundle m).size = sizeOf m := rfl

@[simp] theorem controlBundle_sext (m : Mnemonic) : (controlBundle m).sext = sextOf m := rfl

/-- The load family, float and atomic included (R142). -/
theorem memModeOf_eq_load_iff (m : Mnemonic) :
    memModeOf m = .load ↔ m ∈ [.lbz, .lbs, .lhz, .lhs, .lwz, .lws, .ld, .lwa, .lf] := by
  cases m <;> decide

/-- The store family, atomic included (R142). -/
theorem memModeOf_eq_store_iff (m : Mnemonic) : memModeOf m = .store ↔ m ∈ [.sb, .sh, .sw, .sd, .swa] := by
  cases m <;> decide

theorem MemMode.eq_noAccess_iff (x : MemMode) : x = .noAccess ↔ ¬(x = .load ∨ x = .store) := by
  cases x <;> decide

/-- What is in neither family does not access memory (R142). -/
theorem memModeOf_eq_noAccess_iff (m : Mnemonic) :
    memModeOf m = .noAccess ↔
      m ∉ [.lbz, .lbs, .lhz, .lhs, .lwz, .lws, .ld, .lwa, .lf, .sb, .sh, .sw, .sd, .swa] := by
  rw [MemMode.eq_noAccess_iff, memModeOf_eq_load_iff, memModeOf_eq_store_iff, ← List.mem_append]
  rfl

/-- The size table: the half-word and float forms are in neither group and so move one byte (R144, 90_conflicts.md C3). -/
theorem sizeOf_eq_ite (m : Mnemonic) :
    sizeOf m = if m ∈ [.ld, .sd] then 8 else if m ∈ [.lwz, .lws, .lwa, .sw, .swa] then 4 else 1 := by
  cases m <;> decide

/-- `l.lhs` is not among the loads that extend the sign (R145). -/
theorem sextOf_eq_true_iff (m : Mnemonic) : sextOf m = true ↔ m = .lws ∨ m = .lbs := by
  cases m <;> decide

/-- Settles O11: the bundle's memory fields are the three tables, each described above. -/
theorem memoryControlSignals : Obligations.MemoryControlSignals := by
  intro m
  simp only [controlBundle_memMode, controlBundle_size, controlBundle_sext]
  exact ⟨memModeOf_eq_load_iff m, memModeOf_eq_store_iff m, memModeOf_eq_noAccess_iff m, sizeOf_eq_ite m,
    sextOf_eq_true_iff m⟩

end Sys2Proof.Machine

/-! PROOFS. The memory instructions that have the same effect (43_load_store.md R257). -/

namespace Sys2Proof.Machine

/-! ### Each load and store as an instance of its template (R241, R251) -/

theorem exec_lwa (d a : RegIdx) (i : BitVec 16) (s : State) : exec (.lwa d a i) s = s.load d a i 4 false := rfl

theorem exec_lwz (d a : RegIdx) (i : BitVec 16) (s : State) : exec (.lwz d a i) s = s.load d a i 4 false := rfl

theorem exec_lws (d a : RegIdx) (i : BitVec 16) (s : State) : exec (.lws d a i) s = s.load d a i 4 true := rfl

theorem exec_lbz (d a : RegIdx) (i : BitVec 16) (s : State) : exec (.lbz d a i) s = s.load d a i 1 false := rfl

theorem exec_lhz (d a : RegIdx) (i : BitVec 16) (s : State) : exec (.lhz d a i) s = s.load d a i 1 false := rfl

theorem exec_lhs (d a : RegIdx) (i : BitVec 16) (s : State) : exec (.lhs d a i) s = s.load d a i 1 false := rfl

theorem exec_lf (d a : RegIdx) (i : BitVec 16) (s : State) : exec (.lf d a i) s = s.load d a i 1 false := rfl

theorem exec_swa (i : BitVec 16) (a b : RegIdx) (s : State) : exec (.swa i a b) s = s.store i a b 4 := rfl

theorem exec_sw (i : BitVec 16) (a b : RegIdx) (s : State) : exec (.sw i a b) s = s.store i a b 4 := rfl

theorem exec_sb (i : BitVec 16) (a b : RegIdx) (s : State) : exec (.sb i a b) s = s.store i a b 1 := rfl

theorem exec_sh (i : BitVec 16) (a b : RegIdx) (s : State) : exec (.sh i a b) s = s.store i a b 1 := rfl

/-! ### Word loads do not depend on the extension -/

/-- A loaded word fills the register, so extending its sign changes nothing. -/
theorem extendLoaded_four (sx : Bool) (v : BitVec 64) : extendLoaded 4 sx v = v.setWidth 32 := by
  cases sx <;> rfl

/-- Whether the bus answers or refuses, the outcome of a word load is the same with and without sign extension. -/
theorem load_four_sext (s : State) (d a : RegIdx) (i : BitVec 16) : s.load d a i 4 true = s.load d a i 4 false := by
  unfold State.load
  simp only [extendLoaded_four]

/-! ### The sizes -/

/-- The half-word forms move one byte, so no row of the size table is 2 (90_conflicts.md C3). -/
theorem sizeOf_ne_two (m : Mnemonic) : sizeOf m ≠ 2 := by
  rw [sizeOf_eq_ite]
  split_ifs <;> decide

/-- Settles O35: the instructions of a class run one template with one size, and only `l.lws` differs, in an extension that a word
load does not show. -/
theorem sameEffectMemoryInstructions : Obligations.SameEffectMemoryInstructions := by
  refine ⟨fun d a i s => ?_, fun a b i s => ?_, fun m => ?_⟩
  · rw [exec_lwz, exec_lws, exec_lwa, load_four_sext, exec_lbz, exec_lhz, exec_lhs, exec_lf]
    exact ⟨rfl, rfl, rfl, rfl, rfl⟩
  · rw [exec_sw, exec_swa, exec_sb, exec_sh]
    exact ⟨rfl, rfl⟩
  · rw [controlBundle_size]
    exact sizeOf_ne_two m

end Sys2Proof.Machine

/-! PROOFS. Windows of a word, and the masks that select them (00_scope.md R9). -/

namespace Sys2Proof

/-! ### Windows of a word and the masks that select them -/

/-- The mask that selects the `n` bits of a word from bit `lo` upward (00_scope.md R9). -/
def windowMask (lo n : Nat) : Word := put (BitVec.allOnes n) lo

theorem getLsbD_windowMask (lo n k : Nat) (h : lo + n ≤ 32) :
    (windowMask lo n).getLsbD k = decide (lo ≤ k ∧ k < lo + n) := by
  unfold windowMask put
  rw [BitVec.getLsbD_shiftLeft, BitVec.getLsbD_setWidth, BitVec.getLsbD_allOnes]
  simp only [← decide_not, ← Bool.decide_and, decide_eq_decide]
  omega

/-- A window put back where it was read is the word under the window's mask. -/
theorem put_extractLsb' (w : Word) (lo n : Nat) (h : lo + n ≤ 32) :
    put (w.extractLsb' lo n) lo = w &&& windowMask lo n := by
  apply BitVec.eq_of_getLsbD_eq
  intro k hk
  rw [BitVec.getLsbD_and, getLsbD_windowMask lo n k h]
  unfold put
  rw [BitVec.getLsbD_shiftLeft, BitVec.getLsbD_setWidth, BitVec.getLsbD_extractLsb']
  by_cases h1 : lo ≤ k
  · have h2 : lo + (k - lo) = k := by omega
    have h3 : k - lo < n ↔ k < lo + n := by omega
    have h4 : k - lo < 32 := by omega
    have h5 : ¬ k < lo := by omega
    simp [h1, h2, h3, h4, h5, hk, Bool.and_comm]
  · have h5 : k < lo := by omega
    simp [h1, h5]

theorem extractLsb'_windowMask (lo n : Nat) (h : lo + n ≤ 32) : (windowMask lo n).extractLsb' lo n = BitVec.allOnes n :=
  extract_put_self _ lo h

/-- Two words agree under a window's mask exactly when the window reads alike in both. -/
theorem and_windowMask_eq_iff (v w : Word) (lo n : Nat) (h : lo + n ≤ 32) :
    w &&& windowMask lo n = v &&& windowMask lo n ↔ w.extractLsb' lo n = v.extractLsb' lo n := by
  constructor
  · intro hm
    have := congrArg (BitVec.extractLsb' lo n) hm
    simpa [BitVec.extractLsb'_and, extractLsb'_windowMask lo n h] using this
  · intro hx
    rw [← put_extractLsb' w lo n h, ← put_extractLsb' v lo n h, hx]

/-- Two words agree under the union of two masks exactly when they agree under both. -/
theorem and_or_eq_iff (v w a b : Word) : w &&& (a ||| b) = v &&& (a ||| b) ↔ w &&& a = v &&& a ∧ w &&& b = v &&& b := by
  constructor
  · intro h
    have key : ∀ x y : Word, (x &&& (a ||| b)) &&& y = x &&& ((a ||| b) &&& y) := fun x y => BitVec.and_assoc ..
    have ha : (a ||| b) &&& a = a := by
      apply BitVec.eq_of_getLsbD_eq; intro k _; simp; cases a.getLsbD k <;> simp
    have hb : (a ||| b) &&& b = b := by
      apply BitVec.eq_of_getLsbD_eq; intro k _; simp; cases b.getLsbD k <;> simp
    exact ⟨by rw [← ha, ← key, h, key], by rw [← hb, ← key, h, key]⟩
  · rintro ⟨ha, hb⟩
    rw [BitVec.and_or_distrib_left, BitVec.and_or_distrib_left, ha, hb]

end Sys2Proof

/-! PROOFS. The opcode table read by windows, and each of the decoder's tables as rows of it (30_encoding.md R85 to R89, R98 to R100). -/

namespace Sys2Proof

/-- The union of the masks of a list of windows, each given by its lowest bit and its width. -/
def windowsMask (ws : List (Nat × Nat)) : Word :=
  match ws with
  | [] => 0#32
  | p :: rest => windowMask p.1 p.2 ||| windowsMask rest

/-- Two words agree under the mask of some windows exactly when every one of the windows reads alike in both. -/
theorem and_windowsMask_eq_iff (v w : Word) (ws : List (Nat × Nat)) (h : ∀ p ∈ ws, p.1 + p.2 ≤ 32) :
    w &&& windowsMask ws = v &&& windowsMask ws ↔ ∀ p ∈ ws, w.extractLsb' p.1 p.2 = v.extractLsb' p.1 p.2 := by
  induction ws with
  | nil => simp [windowsMask]
  | cons p rest ih =>
    rw [windowsMask, and_or_eq_iff, and_windowMask_eq_iff v w p.1 p.2 (h p List.mem_cons_self),
      ih fun q hq => h q (List.mem_cons_of_mem p hq), List.forall_mem_cons]

/-- The windows that the mask column of the opcode table selects (30_encoding.md R85 to R89, R98 to R100). -/
def opcodeWindows (m : Mnemonic) : List (Nat × Nat) :=
  match m with
  | .slli | .srli | .srai | .rori => [(26, 6), (6, 2)]
  | .movhi | .macrc => [(26, 6), (16, 1)]
  | .add | .sub | .or | .and | .xor | .cmov | .ff1 | .mul | .div | .divu | .mulu => [(26, 6), (8, 2), (0, 4)]
  | .sll | .sra | .srl | .ror | .exths | .extbs | .exthz | .extbz | .extws | .extwz => [(26, 6), (8, 2), (6, 2), (0, 4)]
  | .sfeq | .sfne | .sfges | .sfles | .sfeqi | .sfnei | .sfgesi | .sflesi | .sfgtu | .sfgeu | .sfltu | .sfleu | .sfgts |
    .sflts | .sfgtui | .sfgeui | .sfltui | .sfleui | .sfgtsi | .sfltsi => [(21, 11)]
  | .nop => [(24, 8)]
  | .sys | .trap => [(16, 16)]
  | .msync | .psync | .csync | .endOfTest => [(0, 32)]
  | _ => [(26, 6)]

theorem opcodeWindows_bound (m : Mnemonic) : ∀ p ∈ opcodeWindows m, p.1 + p.2 ≤ 32 := by cases m <;> decide

theorem opcodeRow_mask (e : Word) (m : Mnemonic) : (opcodeRow e m).2 = windowsMask (opcodeWindows m) := by cases m <;> rfl

theorem opcodeRow_of_ne_endOfTest (e : Word) (m : Mnemonic) (h : m ≠ .endOfTest) : opcodeRow e m = opcodeRow 0#32 m := by
  cases m
  case endOfTest => exact absurd rfl h
  all_goals rfl

/-- No row's match has a bit outside its mask. -/
theorem opcodeRow_match_and_mask (e : Word) (m : Mnemonic) : (opcodeRow e m).1 &&& (opcodeRow e m).2 = (opcodeRow e m).1 := by
  by_cases h : m = .endOfTest
  · subst h
    exact BitVec.and_allOnes
  · rw [opcodeRow_of_ne_endOfTest e m h]
    cases m <;> decide

/-- A word is in a row exactly when every window of the row reads as in the row's match. -/
theorem inOpcodeRow_iff (e w : Word) (m : Mnemonic) :
    inOpcodeRow e m w = true ↔ ∀ p ∈ opcodeWindows m, w.extractLsb' p.1 p.2 = (opcodeRow e m).1.extractLsb' p.1 p.2 := by
  rw [← and_windowsMask_eq_iff _ _ _ (opcodeWindows_bound m), ← opcodeRow_mask e m, opcodeRow_match_and_mask]
  exact beq_iff_eq

/-! ### Each of the decoder's tables answers a row that the word is in -/

/-- The compares (R87). -/
theorem compareOpcode_row (e w : Word) (m : Mnemonic) (h : compareOpcode w = some m) :
    m ≠ .endOfTest ∧ inOpcodeRow e m w = true := by
  unfold compareOpcode at h
  split at h
  all_goals
    cases h <;> next hw => exact ⟨by decide, (inOpcodeRow_iff ..).mpr (by simpa [opcodeWindows, opcodeRow] using hw)⟩

theorem two_bits_eq_three (x : BitVec 2) (h0 : x ≠ 0#2) (h1 : x ≠ 1#2) (h2 : x ≠ 2#2) : x = 3#2 := by
  decide +revert

/-- The shift-immediate family (R98). -/
theorem shiftImmediateOpcode_row (e w : Word) (h : w.extractLsb' 26 6 = 0x2E#6) :
    shiftImmediateOpcode w ≠ .endOfTest ∧ inOpcodeRow e (shiftImmediateOpcode w) w = true := by
  rw [inOpcodeRow_iff]
  unfold shiftImmediateOpcode
  split
  case h_4 h0 h1 h2 => simp [opcodeWindows, opcodeRow, h, two_bits_eq_three _ h0 h1 h2]
  all_goals next hw => simp [opcodeWindows, opcodeRow, h, hw]

/-- The bit that tells `l.macrc` from `l.movhi` (R99). -/
theorem moveHigh_row (e w : Word) (m : Mnemonic) (h : w.extractLsb' 26 6 = 0x06#6)
    (hm : m = if w.extractLsb' 16 1 = 0#1 then .movhi else .macrc) : m ≠ .endOfTest ∧ inOpcodeRow e m w = true := by
  have bit : ∀ x : BitVec 1, x ≠ 0#1 → x = 1#1 := by decide
  subst hm
  rw [inOpcodeRow_iff]
  split
  · next hw => simp [opcodeWindows, opcodeRow, h, hw]
  · next hw => simp [opcodeWindows, opcodeRow, h, bit _ hw]

/-- The ADD family (R100). -/
theorem addFamilyOpcode_row (e w : Word) (m : Mnemonic) (h : w.extractLsb' 26 6 = 0x38#6) (hm : addFamilyOpcode w = some m) :
    m ≠ .endOfTest ∧ inOpcodeRow e m w = true := by
  rw [inOpcodeRow_iff]
  unfold addFamilyOpcode at hm
  split at hm
  case h_8 h98 h30 =>
    split at hm <;> cases hm
    case h_4 h0 h1 h2 => simp [opcodeWindows, opcodeRow, h, h98, h30, two_bits_eq_three _ h0 h1 h2]
    all_goals next h76 => simp [opcodeWindows, opcodeRow, h, h98, h30, h76]
  case h_9 h98 h30 =>
    split at hm <;> cases hm
    case h_4 h0 h1 h2 => simp [opcodeWindows, opcodeRow, h, h98, h30, two_bits_eq_three _ h0 h1 h2]
    all_goals next h76 => simp [opcodeWindows, opcodeRow, h, h98, h30, h76]
  case h_10 h98 h30 =>
    split at hm <;> cases hm
    all_goals next h76 => simp [opcodeWindows, opcodeRow, h, h98, h30, h76]
  all_goals cases hm
  all_goals next h98 h30 => simp [opcodeWindows, opcodeRow, h, h98, h30]

/-- The primary table with its secondary windows (R89, R98 to R100). -/
theorem primaryOpcode_row (e w : Word) (m : Mnemonic) (h : primaryOpcode w = .ok m) :
    m ≠ .endOfTest ∧ inOpcodeRow e m w = true := by
  unfold primaryOpcode at h
  split at h
  case h_7 htop => exact moveHigh_row e w m htop (Except.ok.inj h).symm
  case h_22 htop => exact Except.ok.inj h ▸ shiftImmediateOpcode_row e w htop
  case h_29 htop =>
    split at h <;> cases h
    next ha => exact addFamilyOpcode_row e w m htop ha
  all_goals cases h
  all_goals next htop => rw [inOpcodeRow_iff]; simp [opcodeWindows, opcodeRow, htop]

end Sys2Proof

/-! PROOFS. The decoder with its order of checks is the opcode table (30_encoding.md R84 to R103). -/

namespace Sys2Proof

/-! ### The order of checks -/

/-- A window that reaches up to bit 31 holds the primary opcode in its top six bits. -/
theorem primary_of_window (w : Word) (lo n : Nat) (v : BitVec n) (hn : 6 ≤ n) (hlo : lo + n = 32) (h : w.extractLsb' lo n = v) :
    w.extractLsb' 26 6 = v.extractLsb' (n - 6) 6 := by
  subst h
  apply BitVec.eq_of_getLsbD_eq
  intro j hj
  have h1 : n - 6 + j < n := by omega
  have h2 : lo + (n - 6 + j) = 26 + j := by omega
  simp [hj, h1, h2]

/-- A compare's code stands in one of two primary opcodes (R87). -/
theorem primary_of_compareOpcode (w : Word) (m : Mnemonic) (h : compareOpcode w = some m) :
    w.extractLsb' 26 6 = 0x2F#6 ∨ w.extractLsb' 26 6 = 0x39#6 := by
  unfold compareOpcode at h
  split at h
  case h_21 => cases h
  all_goals next hw => rw [primary_of_window w 21 11 _ (by decide) (by decide) hw]; decide

theorem primary_of_nop (w : Word) (h : w.extractLsb' 24 8 = 0x15#8) : w.extractLsb' 26 6 = 0x05#6 :=
  primary_of_window w 24 8 _ (by decide) (by decide) h

theorem primary_of_system (w : Word)
    (h : w = 0x22000000#32 ∨ w = 0x22800000#32 ∨ w = 0x23000000#32 ∨ w.extractLsb' 16 16 = 0x2000#16 ∨
      w.extractLsb' 16 16 = 0x2100#16) : w.extractLsb' 26 6 = 0x08#6 := by
  rcases h with rfl | rfl | rfl | h | h
  · rfl
  · rfl
  · rfl
  · exact primary_of_window w 16 16 _ (by decide) (by decide) h
  · exact primary_of_window w 16 16 _ (by decide) (by decide) h

/-- The primary table has no row for the opcodes that checks (a), (b), (c), (d) are about (R107). -/
theorem primaryOpcode_ok (w : Word) (m : Mnemonic) (h : primaryOpcode w = .ok m) :
    w.extractLsb' 26 6 ≠ 0x05#6 ∧ w.extractLsb' 26 6 ≠ 0x08#6 ∧ w.extractLsb' 26 6 ≠ 0x2F#6 ∧ w.extractLsb' 26 6 ≠ 0x39#6 := by
  refine ⟨?_, ?_, ?_, ?_⟩ <;> intro htop <;> simp [primaryOpcode, htop] at h

/-- The checks before (c) pass nothing away from the no-op's and the system words' primary opcodes. -/
theorem resolve_skips_windows (e w : Word) (he : w ≠ e) (h5 : w.extractLsb' 26 6 ≠ 0x05#6) (h8 : w.extractLsb' 26 6 ≠ 0x08#6) :
    (∀ m, compareOpcode w = some m → resolve e w = .ok m) ∧ (compareOpcode w = none → resolve e w = primaryOpcode w) := by
  obtain ⟨h1, h2, h3, h4, h6⟩ : _ ∧ _ ∧ _ ∧ _ ∧ _ := by simpa only [not_or] using mt (primary_of_system w) h8
  constructor <;> intros
  all_goals next hc => simp [resolve, he, mt (primary_of_nop w) h5, h1, h2, h3, h4, h6, hc]

theorem resolve_of_compareOpcode (e w : Word) (m : Mnemonic) (he : w ≠ e) (h : compareOpcode w = some m) :
    resolve e w = .ok m := by
  have htop := primary_of_compareOpcode w m h
  refine (resolve_skips_windows e w he ?_ ?_).1 m h <;> rcases htop with htop | htop <;> rw [htop] <;> decide

theorem resolve_of_primaryOpcode (e w : Word) (m : Mnemonic) (he : w ≠ e) (h : primaryOpcode w = .ok m) :
    resolve e w = .ok m := by
  obtain ⟨h5, h8, h2F, h39⟩ := primaryOpcode_ok w m h
  have hc : compareOpcode w = none := by
    cases hc : compareOpcode w with
    | none => rfl
    | some k => exact ((primary_of_compareOpcode w k hc).elim h2F h39).elim
  rw [(resolve_skips_windows e w he h5 h8).2 hc, h]

/-- The full words and the two windows of the system primary opcode. -/
theorem resolve_of_system (e w : Word) (he : w ≠ e) (h8 : w.extractLsb' 26 6 = 0x08#6) :
    resolve e w =
      if w = 0x22000000#32 then .ok .msync
      else if w = 0x22800000#32 then .ok .psync
      else if w = 0x23000000#32 then .ok .csync
      else if w.extractLsb' 16 16 = 0x2000#16 then .ok .sys
      else if w.extractLsb' 16 16 = 0x2100#16 then .ok .trap
      else .error .systemWindow := by
  have hn : w.extractLsb' 24 8 ≠ 0x15#8 := by
    intro h
    have h5 := primary_of_nop w h
    rw [h8] at h5
    exact absurd h5 (by decide)
  have hc : compareOpcode w = none := by
    cases hc : compareOpcode w with
    | none => rfl
    | some m =>
      have hm := primary_of_compareOpcode w m hc
      rw [h8] at hm
      exact absurd hm (by decide)
  simp [resolve, he, hn, hc, primaryOpcode, h8]

/-- What a word other than `END_WORD` resolves to is a row of the table that the word is in. -/
theorem row_of_resolve (e w : Word) (m : Mnemonic) (he : w ≠ e) (h : resolve e w = .ok m) :
    m ≠ .endOfTest ∧ inOpcodeRow e m w = true := by
  cases hc : compareOpcode w with
  | some k =>
    rw [resolve_of_compareOpcode e w k he hc] at h
    exact Except.ok.inj h ▸ compareOpcode_row e w k hc
  | none =>
    simp only [resolve, if_neg he, hc] at h
    split_ifs at h
    case neg => exact primaryOpcode_row e w m h
    all_goals cases h
    all_goals next hw => exact ⟨by decide, (inOpcodeRow_iff ..).mpr (by simp [opcodeWindows, opcodeRow, hw])⟩

/-- A word that is in a row of the table resolves to that row. -/
theorem resolve_of_row (e w : Word) (m : Mnemonic) (he : w ≠ e) (hm : m ≠ .endOfTest) (h : inOpcodeRow e m w = true) :
    resolve e w = .ok m := by
  rw [inOpcodeRow_iff] at h
  cases m
  case endOfTest => exact absurd rfl hm
  case nop =>
    simp [opcodeWindows, opcodeRow] at h
    simp [resolve, he, h]
  case msync | psync | csync =>
    simp [opcodeWindows, opcodeRow] at h
    subst h
    rw [resolve_of_system e _ he (by decide)]
    rfl
  case sys | trap =>
    simp [opcodeWindows, opcodeRow] at h
    have hw : ∀ v : Word, v.extractLsb' 16 16 ≠ w.extractLsb' 16 16 → w ≠ v := fun v hv hwv => hv (by rw [hwv])
    rw [resolve_of_system e w he (primary_of_system w (by simp [h])), if_neg (hw _ (by rw [h]; decide)),
      if_neg (hw _ (by rw [h]; decide)), if_neg (hw _ (by rw [h]; decide)), h]
    rfl
  case sfeq | sfne | sfges | sfles | sfeqi | sfnei | sfgesi | sflesi | sfgtu | sfgeu | sfltu | sfleu | sfgts |
    sflts | sfgtui | sfgeui | sfltui | sfleui | sfgtsi | sfltsi =>
    apply resolve_of_compareOpcode e w _ he
    simp [opcodeWindows, opcodeRow] at h
    simp [compareOpcode, h]
  all_goals
    apply resolve_of_primaryOpcode e w _ he
    simp [opcodeWindows, opcodeRow] at h
    simp [primaryOpcode, shiftImmediateOpcode, addFamilyOpcode, h]

/-- `END_WORD` is checked first (R84, R103). -/
theorem resolve_endWord (e : Word) : resolve e e = .ok .endOfTest := if_pos rfl

/-- Settles O3: each branch of the resolver is a row, and each row's windows steer the checks into its branch. -/
theorem decoderIsTheOpcodeTable : Obligations.DecoderIsTheOpcodeTable :=
  ⟨fun e w m he => ⟨row_of_resolve e w m he, fun ⟨hm, h⟩ => resolve_of_row e w m he hm h⟩, resolve_endWord⟩

end Sys2Proof

/-! PROOFS. Decoding the encoding of an instruction gives it back, as a word and as bytes (30_encoding.md R80 to R103). -/

namespace Sys2Proof

/-! ### Decoding an encoding -/

/-- The operands of every instruction stand in its word where the decoder reads them (R82, R83). -/
theorem operandsOf_encode (e : Word) (i : Instr) : operandsOf i.mnemonic (encode e i) = i := by
  cases i with
  | addi d a i => exact Laws.OperandsRoundTrip.addi d a i e
  | ori d a i => exact Laws.OperandsRoundTrip.ori d a i e
  | slli d a l => exact Laws.OperandsRoundTrip.slli d a l e
  | srli d a l => exact Laws.OperandsRoundTrip.srli d a l e
  | srai d a l => exact Laws.OperandsRoundTrip.srai d a l e
  | rori d a l => exact Laws.OperandsRoundTrip.rori d a l e
  | movhi d k => exact Laws.OperandsRoundTrip.movhi d k e
  | macrc d => exact Laws.OperandsRoundTrip.macrc d e
  | add d a b => exact Laws.OperandsRoundTrip.add d a b e
  | sub d a b => exact Laws.OperandsRoundTrip.sub d a b e
  | or d a b => exact Laws.OperandsRoundTrip.or d a b e
  | sll d a b => exact Laws.OperandsRoundTrip.sll d a b e
  | sra d a b => exact Laws.OperandsRoundTrip.sra d a b e
  | and d a b => exact Laws.OperandsRoundTrip.and d a b e
  | xor d a b => exact Laws.OperandsRoundTrip.xor d a b e
  | cmov d a b => exact Laws.OperandsRoundTrip.cmov d a b e
  | ff1 d a => exact Laws.OperandsRoundTrip.ff1 d a e
  | srl d a b => exact Laws.OperandsRoundTrip.srl d a b e
  | ror d a b => exact Laws.OperandsRoundTrip.ror d a b e
  | exths d a => exact Laws.OperandsRoundTrip.exths d a e
  | extbs d a => exact Laws.OperandsRoundTrip.extbs d a e
  | exthz d a => exact Laws.OperandsRoundTrip.exthz d a e
  | extbz d a => exact Laws.OperandsRoundTrip.extbz d a e
  | extws d a => exact Laws.OperandsRoundTrip.extws d a e
  | extwz d a => exact Laws.OperandsRoundTrip.extwz d a e
  | mul d a b => exact Laws.OperandsRoundTrip.mul d a b e
  | div d a b => exact Laws.OperandsRoundTrip.div d a b e
  | divu d a b => exact Laws.OperandsRoundTrip.divu d a b e
  | mulu d a b => exact Laws.OperandsRoundTrip.mulu d a b e
  | sfeq a b => exact Laws.OperandsRoundTrip.sfeq a b e
  | sfne a b => exact Laws.OperandsRoundTrip.sfne a b e
  | sfges a b => exact Laws.OperandsRoundTrip.sfges a b e
  | sfles a b => exact Laws.OperandsRoundTrip.sfles a b e
  | sfeqi a i => exact Laws.OperandsRoundTrip.sfeqi a i e
  | sfnei a i => exact Laws.OperandsRoundTrip.sfnei a i e
  | sfgesi a i => exact Laws.OperandsRoundTrip.sfgesi a i e
  | sflesi a i => exact Laws.OperandsRoundTrip.sflesi a i e
  | sfgtu a b => exact Laws.OperandsRoundTrip.sfgtu a b e
  | sfgeu a b => exact Laws.OperandsRoundTrip.sfgeu a b e
  | sfltu a b => exact Laws.OperandsRoundTrip.sfltu a b e
  | sfleu a b => exact Laws.OperandsRoundTrip.sfleu a b e
  | sfgts a b => exact Laws.OperandsRoundTrip.sfgts a b e
  | sflts a b => exact Laws.OperandsRoundTrip.sflts a b e
  | sfgtui a i => exact Laws.OperandsRoundTrip.sfgtui a i e
  | sfgeui a i => exact Laws.OperandsRoundTrip.sfgeui a i e
  | sfltui a i => exact Laws.OperandsRoundTrip.sfltui a i e
  | sfleui a i => exact Laws.OperandsRoundTrip.sfleui a i e
  | sfgtsi a i => exact Laws.OperandsRoundTrip.sfgtsi a i e
  | sfltsi a i => exact Laws.OperandsRoundTrip.sfltsi a i e
  | lwa d a i => exact Laws.OperandsRoundTrip.lwa d a i e
  | lwz d a i => exact Laws.OperandsRoundTrip.lwz d a i e
  | lws d a i => exact Laws.OperandsRoundTrip.lws d a i e
  | lbz d a i => exact Laws.OperandsRoundTrip.lbz d a i e
  | lbs d a i => exact Laws.OperandsRoundTrip.lbs d a i e
  | lhz d a i => exact Laws.OperandsRoundTrip.lhz d a i e
  | lhs d a i => exact Laws.OperandsRoundTrip.lhs d a i e
  | lf d a i => exact Laws.OperandsRoundTrip.lf d a i e
  | swa i a b => exact Laws.OperandsRoundTrip.swa i a b e
  | sw i a b => exact Laws.OperandsRoundTrip.sw i a b e
  | sb i a b => exact Laws.OperandsRoundTrip.sb i a b e
  | sh i a b => exact Laws.OperandsRoundTrip.sh i a b e
  | sd i a b => exact Laws.OperandsRoundTrip.sd i a b e
  | ld d a i => exact Laws.OperandsRoundTrip.ld d a i e
  | j n => exact Laws.OperandsRoundTrip.j n e
  | jal n => exact Laws.OperandsRoundTrip.jal n e
  | bf n => exact Laws.OperandsRoundTrip.bf n e
  | bnf n => exact Laws.OperandsRoundTrip.bnf n e
  | jr b => exact Laws.OperandsRoundTrip.jr b e
  | jalr b => exact Laws.OperandsRoundTrip.jalr b e
  | nop k => exact Laws.OperandsRoundTrip.nop k e
  | msync => exact Laws.OperandsRoundTrip.msync e
  | psync => exact Laws.OperandsRoundTrip.psync e
  | csync => exact Laws.OperandsRoundTrip.csync e
  | sys k => exact Laws.OperandsRoundTrip.sys k e
  | trap k => exact Laws.OperandsRoundTrip.trap k e
  | adrp d n => exact Laws.OperandsRoundTrip.adrp d n e
  | endOfTest => exact Laws.OperandsRoundTrip.endOfTest e

@[simp] theorem mnemonic_operandsOf (m : Mnemonic) (w : Word) : (operandsOf m w).mnemonic = m := by cases m <;> rfl

/-- What decodes is the operands of what resolves. -/
theorem decode_eq_ok_iff (e w : Word) (i : Instr) :
    decode e w = .ok i ↔ ∃ m, resolve e w = .ok m ∧ operandsOf m w = i := by
  unfold decode
  cases resolve e w <;> simp

/-- The mnemonic of a decoded instruction is what its word resolves to. -/
theorem resolve_of_decode (e w : Word) (i : Instr) (h : decode e w = .ok i) :
    resolve e w = .ok i.mnemonic ∧ operandsOf i.mnemonic w = i := by
  obtain ⟨m, hm, rfl⟩ := (decode_eq_ok_iff e w i).mp h
  rw [mnemonic_operandsOf]
  exact ⟨hm, rfl⟩

theorem mnemonic_eq_endOfTest_iff (i : Instr) : i.mnemonic = .endOfTest ↔ i = .endOfTest := by
  constructor
  · intro h
    cases i with
    | endOfTest => rfl
    | _ => cases h
  · rintro rfl
    rfl

/-- A window inside a field that was put reads that part of the field. -/
theorem extract_put_inside {n : Nat} (v : BitVec n) (lo k m : Nat) (h : lo ≤ k ∧ k + m ≤ lo + n) (hn : lo + n ≤ 32) :
    (put v lo).extractLsb' k m = v.extractLsb' (k - lo) m := by
  apply BitVec.eq_of_getLsbD_eq
  intro j hj
  have h1 : k + j < 32 := by omega
  have h2 : ¬ k + j < lo := by omega
  have h3 : k - lo + j = k + j - lo := by omega
  simp [put, hj, h1, h2, h3]

/-- The encoder writes an instruction's opcode windows (R85 to R89, R98 to R100). -/
theorem inOpcodeRow_encode (e : Word) (i : Instr) : inOpcodeRow e i.mnemonic (encode e i) = true := by
  rw [inOpcodeRow_iff]
  cases i
  case endOfTest | msync | psync | csync => simp [Instr.mnemonic, opcodeRow, encode]
  all_goals
    delta opcodeWindows opcodeRow encode Instr.mnemonic
    simp (disch := decide) [BitVec.extractLsb'_or, extract_put_inside, extract_put_disjoint]

theorem resolve_encode (e : Word) (i : Instr) (h : encode e i = e → i = .endOfTest) :
    resolve e (encode e i) = .ok i.mnemonic := by
  by_cases hi : i = .endOfTest
  · subst hi
    exact resolve_endWord e
  · exact resolve_of_row e _ _ (mt h hi) (mt (mnemonic_eq_endOfTest_iff i).mp hi) (inOpcodeRow_encode e i)

/-- Settles O1: the encoding is in the row of its mnemonic, and the operands stand where the decoder reads them. -/
theorem decodeEncode : Obligations.DecodeEncode := fun e i h =>
  (decode_eq_ok_iff e _ i).mpr ⟨i.mnemonic, resolve_encode e i h, operandsOf_encode e i⟩

/-! ### Bytes -/

theorem decodeBytes_bytesOfWord (e w : Word) (i : Instr) (rest : List Byte) (h : decode e w = .ok i) :
    decodeBytes e (bytesOfWord w ++ rest) = .ok (i, rest) := by
  simp only [bytesOfWord, List.cons_append, List.nil_append, decodeBytes]
  rw [Machine.wordOfBytes_bytesOfWord, h]

/-- The default `END_WORD` stands in no row but that of `l.sh` (U12). -/
theorem row_of_endWordDefault (m : Mnemonic) (h : inOpcodeRow Config.endWordDefault m Config.endWordDefault = true) :
    m = .sh ∨ m = .endOfTest := by
  revert h
  cases m <;> decide

/-- Only the ill-formed term and `END` itself are encoded as the default `END_WORD` (R103, U12). -/
theorem encode_eq_endWordDefault (i : Instr) (h : encode Config.endWordDefault i = Config.endWordDefault) :
    i = .sh 0x7CFF#16 31#5 25#5 ∨ i = .endOfTest := by
  have hrow := inOpcodeRow_encode Config.endWordDefault i
  have hops := operandsOf_encode Config.endWordDefault i
  rw [h] at hrow hops
  rw [← hops]
  rcases row_of_endWordDefault _ hrow with hm | hm <;> rw [hm] <;> decide

theorem wellFormed_eq_false_iff (i : Instr) : i.wellFormed = false ↔ i = .sh 0x7CFF#16 31#5 25#5 := by
  simp [Instr.wellFormed]

/-- Settles O2: the default `END_WORD` is the word of the ill-formed term alone, so O1 applies to every other one. -/
theorem wellFormedRoundTrip : Obligations.WellFormedRoundTrip := by
  refine ⟨fun i rest hi => decodeBytes_bytesOfWord _ _ i rest (decodeEncode _ i fun h => ?_), fun i hi => ?_⟩
  · refine (encode_eq_endWordDefault i h).resolve_left fun hsh => ?_
    rw [(wellFormed_eq_false_iff i).mpr hsh] at hi
    cases hi
  · rw [(wellFormed_eq_false_iff i).mp hi]
    decide

end Sys2Proof

/-! PROOFS. Reserved bits, and the words of the spec's examples (30_encoding.md R83, R105). -/

namespace Sys2Proof

/-! ### Reserved bits -/

/-- The windows of a word that hold the fields an instruction carries (R83). -/
def operandWindows (m : Mnemonic) : List (Nat × Nat) :=
  match m with
  | .slli | .srli | .srai | .rori => [(21, 5), (16, 5), (0, 6)]
  | .movhi => [(21, 5), (0, 16)]
  | .macrc => [(21, 5)]
  | .add | .sub | .or | .and | .xor | .cmov | .mul | .div | .divu | .mulu | .sll | .sra | .srl | .ror => [(21, 5), (16, 5), (11, 5)]
  | .ff1 | .exths | .extbs | .exthz | .extbz | .extws | .extwz => [(21, 5), (16, 5)]
  | .sfeq | .sfne | .sfges | .sfles | .sfgtu | .sfgeu | .sfltu | .sfleu | .sfgts | .sflts => [(16, 5), (11, 5)]
  | .sfeqi | .sfnei | .sfgesi | .sflesi | .sfgtui | .sfgeui | .sfltui | .sfleui | .sfgtsi | .sfltsi => [(16, 5), (0, 16)]
  | .swa | .sw | .sb | .sh | .sd => [(21, 5), (0, 11), (16, 5), (11, 5)]
  | .j | .jal | .bf | .bnf => [(0, 26)]
  | .jr | .jalr => [(11, 5)]
  | .nop | .sys | .trap => [(0, 16)]
  | .msync | .psync | .csync | .endOfTest => []
  | .adrp => [(21, 5), (0, 21)]
  | _ => [(21, 5), (16, 5), (0, 16)]

theorem operandWindows_bound (m : Mnemonic) : ∀ p ∈ operandWindows m, p.1 + p.2 ≤ 32 := by cases m <;> decide

/-- The significant bits are those of the opcode windows and of the operands. -/
theorem significantBits_eq_windowsMask (m : Mnemonic) :
    significantBits m = windowsMask (opcodeWindows m ++ operandWindows m) := by
  cases m <;> decide

theorem storeOffset_eq_iff (v w : Word) :
    storeOffset v = storeOffset w ↔ v.extractLsb' 21 5 = w.extractLsb' 21 5 ∧ v.extractLsb' 0 11 = w.extractLsb' 0 11 := by
  unfold storeOffset
  constructor
  · intro h
    have hd := congrArg (BitVec.extractLsb' 11 5) h
    have hi := congrArg (BitVec.extractLsb' 0 11) h
    rw [BitVec.extractLsb'_append_eq_left, BitVec.extractLsb'_append_eq_left] at hd
    rw [BitVec.extractLsb'_append_eq_right, BitVec.extractLsb'_append_eq_right] at hi
    exact ⟨hd, hi⟩
  · rintro ⟨hd, hi⟩
    rw [hd, hi]

/-- Two words have the same operands exactly when they agree in the operand windows. -/
theorem operandsOf_eq_iff (m : Mnemonic) (v w : Word) :
    operandsOf m v = operandsOf m w ↔ ∀ p ∈ operandWindows m, v.extractLsb' p.1 p.2 = w.extractLsb' p.1 p.2 := by
  cases m <;>
    delta operandsOf operandWindows <;>
    simp [fieldD, fieldA, fieldB, imm16, imm6, imm26, imm21, storeOffset_eq_iff, and_assoc]

/-- Words that are both in row `m` agree in the windows of the row. -/
theorem windows_eq_of_row (e v w : Word) (m : Mnemonic) (hv : inOpcodeRow e m v = true) (hw : inOpcodeRow e m w = true) :
    ∀ p ∈ opcodeWindows m, v.extractLsb' p.1 p.2 = w.extractLsb' p.1 p.2 := fun p hp =>
  ((inOpcodeRow_iff e v m).mp hv p hp).trans ((inOpcodeRow_iff e w m).mp hw p hp).symm

/-- Two words agree in the significant bits exactly when they agree in every opcode and operand window. -/
theorem and_significantBits_eq_iff (v w : Word) (m : Mnemonic) :
    v &&& significantBits m = w &&& significantBits m ↔
      (∀ p ∈ opcodeWindows m, v.extractLsb' p.1 p.2 = w.extractLsb' p.1 p.2) ∧
      (∀ p ∈ operandWindows m, v.extractLsb' p.1 p.2 = w.extractLsb' p.1 p.2) := by
  rw [significantBits_eq_windowsMask, and_windowsMask_eq_iff, List.forall_mem_append]
  rw [List.forall_mem_append]
  exact ⟨opcodeWindows_bound m, operandWindows_bound m⟩

/-- A field that stands in the window of a mask is not cleared by it. -/
theorem put_and_of_covered {n : Nat} (v : BitVec n) (lo : Nat) (mask : Word) (hn : lo + n ≤ 32)
    (h : mask &&& windowMask lo n = windowMask lo n) : put v lo &&& mask = put v lo := by
  have hv : put v lo &&& windowMask lo n = put v lo := by
    rw [← put_extractLsb' _ _ _ hn, extract_put_self v lo hn]
  rw [← hv, BitVec.and_assoc, BitVec.and_comm _ mask, h]

/-- The encoder writes 0 in every reserved bit (log entry 18). -/
theorem encode_and_significantBits (e : Word) (i : Instr) : encode e i &&& significantBits i.mnemonic = encode e i := by
  cases i
  case slli | srli | srai | rori | movhi | macrc | add | sub | or | and | xor | cmov | ff1 | mul | div | divu | mulu |
      sll | sra | srl | ror | exths | extbs | exthz | extbz | extws | extwz | sfeq | sfne | sfges | sfles | sfgtu | sfgeu |
      sfltu | sfleu | sfgts | sflts | jr | jalr | nop =>
    delta encode significantBits Instr.mnemonic
    simp (disch := decide) only [BitVec.and_or_distrib_right, put_and_of_covered]
  all_goals exact BitVec.and_allOnes

/-- Settles O5: the encoding and the word agree in every opcode and operand window, and a decoding looks at nothing else. -/
theorem reservedBitsAreIgnored : Obligations.ReservedBitsAreIgnored := by
  intro e w i hw h
  obtain ⟨hr, hops⟩ := resolve_of_decode e w i h
  obtain ⟨hm, hrow⟩ := row_of_resolve e w _ hw hr
  constructor
  · rw [← encode_and_significantBits e i, and_significantBits_eq_iff]
    exact ⟨windows_eq_of_row e _ _ _ (inOpcodeRow_encode e i) hrow,
      (operandsOf_eq_iff _ _ _).mp ((operandsOf_encode e i).trans hops.symm)⟩
  · intro v hv hvw
    obtain ⟨hop, hfields⟩ := (and_significantBits_eq_iff v w _).mp hvw
    have hvrow : inOpcodeRow e i.mnemonic v = true :=
      (inOpcodeRow_iff e v _).mpr fun p hp => (hop p hp).trans ((inOpcodeRow_iff e w _).mp hrow p hp)
    exact (decode_eq_ok_iff e v i).mpr
      ⟨_, resolve_of_row e v _ hv hm hvrow, ((operandsOf_eq_iff _ v w).mpr hfields).trans hops⟩

/-- Settles O6, by running the decoder on each of the words. -/
theorem specWordsDecode : Obligations.SpecWordsDecode := by
  unfold Obligations.SpecWordsDecode
  decide

end Sys2Proof

/-! PROOFS. The words that resolve to nothing, and the immediates (30_encoding.md R90 to R97, R106, R107). -/

namespace Sys2Proof

open Machine

/-! ### The words that resolve to nothing -/

theorem decode_error_iff (e w : Word) : (∃ r, decode e w = .error r) ↔ ∃ r, resolve e w = .error r := by
  unfold decode
  cases resolve e w <;> simp

/-- The no-op's byte needs `w[25:24] = 01` (R85). -/
theorem nop_byte_iff (w : Word) (h : w.extractLsb' 26 6 = 0x05#6) : w.extractLsb' 24 8 = 0x15#8 ↔ w.extractLsb' 24 2 = 1#2 := by
  have hw : w.extractLsb' 24 8 = w.extractLsb' 26 6 ++ w.extractLsb' 24 2 :=
    (BitVec.extractLsb'_append_extractLsb'_eq_extractLsb' (start₁ := 24) (len₁ := 2) rfl).symm
  rw [hw, h]
  generalize w.extractLsb' 24 2 = x
  decide +revert

theorem resolve_error_of_nop (e w : Word) (he : w ≠ e) (h : w.extractLsb' 26 6 = 0x05#6) :
    (∃ r, resolve e w = .error r) ↔ w.extractLsb' 24 2 ≠ 1#2 := by
  have hc : compareOpcode w = none := by
    cases hc : compareOpcode w with
    | none => rfl
    | some m =>
      have hm := primary_of_compareOpcode w m hc
      rw [h] at hm
      exact absurd hm (by decide)
  have h8 := mt (primary_of_system w) (by rw [h]; decide)
  simp only [not_or] at h8
  obtain ⟨h1, h2, h3, h4, h6⟩ := h8
  rw [ne_eq, ← nop_byte_iff w h]
  by_cases hn : w.extractLsb' 24 8 = 0x15#8 <;> simp [resolve, he, hn, h1, h2, h3, h4, h6, hc, primaryOpcode, h]

theorem resolve_error_of_system (e w : Word) (he : w ≠ e) (h : w.extractLsb' 26 6 = 0x08#6) :
    (∃ r, resolve e w = .error r) ↔
      w.extractLsb' 16 16 ∉ [0x2000#16, 0x2100#16] ∧ w ∉ [0x22000000#32, 0x22800000#32, 0x23000000#32] := by
  rw [resolve_of_system e w he h]
  split_ifs <;> simp_all

/-- The condition codes of the compares (R87). -/
theorem compareOpcode_eq_none_iff (w : Word) (h : w.extractLsb' 26 6 = 0x2F#6 ∨ w.extractLsb' 26 6 = 0x39#6) :
    compareOpcode w = none ↔
      w.extractLsb' 21 5 ∉ [0#5, 1#5, 2#5, 3#5, 4#5, 5#5, 10#5, 11#5, 12#5, 13#5] := by
  have hw : w.extractLsb' 21 11 = w.extractLsb' 26 6 ++ w.extractLsb' 21 5 :=
    (BitVec.extractLsb'_append_extractLsb'_eq_extractLsb' (start₁ := 21) (len₁ := 5) rfl).symm
  unfold compareOpcode
  rw [hw]
  generalize w.extractLsb' 21 5 = x
  rcases h with h | h <;> rw [h] <;> decide +revert

theorem resolve_error_of_compare (e w : Word) (he : w ≠ e) (h : w.extractLsb' 26 6 = 0x2F#6 ∨ w.extractLsb' 26 6 = 0x39#6) :
    (∃ r, resolve e w = .error r) ↔
      w.extractLsb' 21 5 ∉ [0#5, 1#5, 2#5, 3#5, 4#5, 5#5, 10#5, 11#5, 12#5, 13#5] := by
  rw [← compareOpcode_eq_none_iff w h]
  cases hc : compareOpcode w with
  | some m => simp [resolve_of_compareOpcode e w m he hc]
  | none =>
    rw [(resolve_skips_windows e w he (by rcases h with h | h <;> rw [h] <;> decide)
      (by rcases h with h | h <;> rw [h] <;> decide)).2 hc]
    rcases h with h | h <;> simp [primaryOpcode, h]

/-- The words of the ADD family in no row (R100, R106). -/
theorem addFamilyOpcode_eq_none_iff (w : Word) : addFamilyOpcode w = none ↔ ¬ addFamilyRow w := by
  unfold addFamilyOpcode addFamilyRow
  generalize w.extractLsb' 8 2 = x
  generalize w.extractLsb' 0 4 = y
  generalize w.extractLsb' 6 2 = z
  decide +revert

/-- Every primary opcode is in a table of the decoder or in the list of R107. -/
theorem primary_listed (x : BitVec 6) :
    x ∈ [0x00#6, 0x01#6, 0x02#6, 0x03#6, 0x04#6, 0x05#6, 0x06#6, 0x08#6, 0x11#6, 0x12#6, 0x1A#6, 0x1B#6, 0x20#6, 0x21#6,
      0x22#6, 0x23#6, 0x24#6, 0x25#6, 0x26#6, 0x27#6, 0x2A#6, 0x2E#6, 0x2F#6, 0x33#6, 0x34#6, 0x35#6, 0x36#6, 0x37#6,
      0x38#6, 0x39#6] ∨
    x ∈ [0x07#6, 0x09#6, 0x0A#6, 0x0B#6, 0x0C#6, 0x0D#6, 0x0E#6, 0x0F#6, 0x10#6, 0x13#6, 0x14#6, 0x15#6,
      0x16#6, 0x17#6, 0x18#6, 0x19#6, 0x1C#6, 0x1D#6, 0x1E#6, 0x1F#6, 0x28#6, 0x29#6, 0x2B#6, 0x2C#6, 0x2D#6, 0x30#6,
      0x31#6, 0x32#6, 0x3A#6, 0x3B#6, 0x3C#6, 0x3D#6, 0x3E#6, 0x3F#6] := by
  decide +revert

theorem resolve_error_of_primary (e w : Word) (he : w ≠ e) (h5 : w.extractLsb' 26 6 ≠ 0x05#6) (h8 : w.extractLsb' 26 6 ≠ 0x08#6)
    (h2F : w.extractLsb' 26 6 ≠ 0x2F#6) (h39 : w.extractLsb' 26 6 ≠ 0x39#6) :
    (∃ r, resolve e w = .error r) ↔ illegalWord w := by
  have hc : compareOpcode w = none := by
    cases hc : compareOpcode w with
    | none => rfl
    | some m => exact ((primary_of_compareOpcode w m hc).elim h2F h39).elim
  rw [(resolve_skips_windows e w he h5 h8).2 hc]
  simp only [illegalWord, h5, h8, h2F, h39, ← addFamilyOpcode_eq_none_iff, false_and, or_self, false_or]
  unfold primaryOpcode
  split
  case h_29 htop => cases addFamilyOpcode w <;> simp [htop]
  case h_31 =>
    simp only [Except.error.injEq, exists_eq', true_iff]
    right
    refine (primary_listed _).resolve_left ?_
    simp_all
  all_goals next htop => simp_all

/-- Settles O4, by the primary opcode: the no-op's, the system words', the compares', and every other. -/
theorem illegalWordsAreThoseListed : Obligations.IllegalWordsAreThoseListed := by
  intro e w
  rw [decode_error_iff]
  by_cases he : w = e
  · simp [he, resolve_endWord]
  simp only [ne_eq, he, not_false_eq_true, true_and]
  by_cases h5 : w.extractLsb' 26 6 = 0x05#6
  · rw [resolve_error_of_nop e w he h5]
    simp [illegalWord, h5]
  by_cases h8 : w.extractLsb' 26 6 = 0x08#6
  · rw [resolve_error_of_system e w he h8]
    simp [illegalWord, h8]
  by_cases hc : w.extractLsb' 26 6 = 0x2F#6 ∨ w.extractLsb' 26 6 = 0x39#6
  · rw [resolve_error_of_compare e w he hc]
    rcases hc with h | h <;> simp [illegalWord, h]
  · obtain ⟨h2F, h39⟩ := not_or.mp hc
    exact resolve_error_of_primary e w he h5 h8 h2F h39

/-! ### Immediates -/

/-- The signed reading of a field survives its extension to a word (00_scope.md R10). -/
theorem toInt_sext {n : Nat} (v : BitVec n) (h0 : 0 < n) (hn : n ≤ 32) : (sext v).toInt = signedField n v.toNat := by
  unfold sext signedField
  rw [BitVec.toInt_signExtend_of_le hn, BitVec.toInt_eq_toNat_cond]
  have h2 : 2 * v.toNat < 2 ^ n ↔ v.toNat < 2 ^ (n - 1) := by
    have hp : 2 ^ n = 2 * 2 ^ (n - 1) := by rw [← pow_succ', Nat.sub_add_cancel h0]
    omega
  simp [h2]

theorem toNat_imm16 (w : Word) : (imm16 w).toNat = w.toNat % 2 ^ 16 := by simp [imm16]
theorem toNat_imm6 (w : Word) : (imm6 w).toNat = w.toNat % 2 ^ 6 := by simp [imm6]
theorem toNat_imm26 (w : Word) : (imm26 w).toNat = w.toNat % 2 ^ 26 := by simp [imm26]
theorem toNat_imm21 (w : Word) : (imm21 w).toNat = w.toNat % 2 ^ 21 := by simp [imm21]

/-- The two halves of a store's displacement, the high one from `w[25:21]` (R94). -/
theorem toNat_storeOffset (w : Word) : (storeOffset w).toNat = w.toNat / 2 ^ 21 % 2 ^ 5 * 2 ^ 11 + w.toNat % 2 ^ 11 := by
  unfold storeOffset
  rw [BitVec.toNat_append, ← Nat.shiftLeft_add_eq_or_of_lt (BitVec.isLt _), Nat.shiftLeft_eq]
  simp [Nat.shiftRight_eq_div_pow]

/-- Settles O7, from the signed reading of each field; the types of `l.adrp` and `l.movhi` are in no other clause. -/
theorem immediatesByType : Obligations.ImmediatesByType := by
  intro m w
  refine ⟨?_, ?_, ?_, ?_, ?_, ?_⟩
  · rintro rfl
    exact (toInt_sext (imm21 w) (by decide) (by decide)).trans (by rw [toNat_imm21])
  · rintro rfl
    simp [getImmediate, zext, toNat_imm16]
    omega
  · intro h1 h2 ht
    have h : getImmediate m w = sext (imm16 w) := by
      simp only [List.mem_cons, List.not_mem_nil, or_false] at ht
      rcases ht with ht | ht | ht | ht <;> simp [getImmediate, h1, h2, ht]
    rw [h, toInt_sext _ (by decide) (by decide), toNat_imm16]
  all_goals
    intro ht
    have h1 : m ≠ .adrp := by rintro rfl; cases ht
    have h2 : m ≠ .movhi := by rintro rfl; cases ht
    simp only [getImmediate, h1, h2, ht, if_false]
    rw [toInt_sext _ (by decide) (by decide)]
  · rw [toNat_imm6]
  · rw [toNat_imm26]
  · rw [toNat_storeOffset]

end Sys2Proof

/-! PROOFS. The ALU's shifts, signed comparisons and jump tag (40_alu_and_control.md R125 to R127, R130, R131). -/

namespace Sys2Proof.Machine

theorem toNat_aluEval_sll (a b : Word) :
    (aluEval .sll a b).toNat = if b.toNat < 32 then a.toNat * 2 ^ b.toNat % 2 ^ 32 else 0 := by
  change (shiftLeftLogical a b).toNat = _
  unfold shiftLeftLogical
  split
  · rw [BitVec.toNat_shiftLeft, Nat.shiftLeft_eq]
  · rfl

theorem toInt_sshiftRight (a : Word) (k : Nat) : (a.sshiftRight k).toInt = a.toInt / 2 ^ k := by
  rw [BitVec.toInt_sshiftRight, Int.shiftRight_eq_div_pow]
  norm_cast

theorem toInt_aluEval_sra (a b : Word) :
    (aluEval .sra a b).toInt = if b.toNat < 32 then a.toInt / 2 ^ b.toNat else a.toInt / 2 ^ 31 := by
  change (shiftRightArithmetic a b).toInt = _
  unfold shiftRightArithmetic
  split <;> exact toInt_sshiftRight a _

theorem aluEval_ge (a b : Word) : aluEval .ge a b = if b.toInt ≤ a.toInt then 1#32 else 0#32 :=
  bitResult_eq_ite _ _ BitVec.sle_iff_toInt_le

theorem aluEval_le (a b : Word) : aluEval .le a b = if a.toInt ≤ b.toInt then 1#32 else 0#32 :=
  bitResult_eq_ite _ _ BitVec.sle_iff_toInt_le

theorem toNat_aluEval_jump (a b : Word) : (aluEval .jump a b).toNat = (a.toNat + b.toNat * 4 % 2 ^ 32) % 2 ^ 32 := by
  change (a + b <<< 2).toNat = _
  rw [BitVec.toNat_add, BitVec.toNat_shiftLeft, Nat.shiftLeft_eq]

/-- Settles O9, one clause per tag. -/
theorem aluShiftsAndSignedComparisons : Obligations.AluShiftsAndSignedComparisons := fun a b =>
  ⟨toNat_aluEval_sll a b, toInt_aluEval_sra a b, aluEval_ge a b, aluEval_le a b, toNat_aluEval_jump a b⟩

end Sys2Proof.Machine

/-! PROOFS. The instructions that compute: arithmetic, shifts and moves, their stubs, and the compares (41_arithmetic_logic.md,
42_compare.md). -/

namespace Sys2Proof.Machine

/-! ### The frames of the instruction forms -/

theorem onlyWritesRegister_writeReg (s : State) (d : RegIdx) (v : Word) : OnlyWritesRegister d v s (s.writeReg d v).retire where
  result := readReg_writeReg_self s d v
  registers := fun i hi => readReg_writeReg_other s d i v hi
  flag := by simp
  transfer := ⟨by simp, by simp⟩
  memory := fun _ => by simp
  control := ⟨by simp, by simp, by simp, by simp, by simp⟩
  completed := ⟨by simp, by simp, by simp⟩

theorem onlyWritesFlag_setFlag (s : State) (f : Bool) : OnlyWritesFlag f s (s.setFlag f).retire where
  flag := rfl
  registers := fun _ => rfl
  transfer := ⟨rfl, rfl⟩
  memory := fun _ => rfl
  control := ⟨rfl, rfl, rfl, rfl, rfl⟩
  completed := ⟨rfl, rfl, rfl⟩

theorem changesNothing_retire (s : State) : ChangesNothing s s.retire where
  registers := fun _ => rfl
  flag := rfl
  transfer := ⟨rfl, rfl⟩
  memory := fun _ => rfl
  control := ⟨rfl, rfl, rfl, rfl, rfl⟩
  completed := ⟨rfl, rfl, rfl⟩

/-- A register-writing form in one step: its outcome and its frame. -/
theorem writeResult_onlyWrites (s : State) (d : RegIdx) (u v : Word) (h : u = v) :
    ∃ t, s.writeResult d u = .next t ∧ OnlyWritesRegister d v s t :=
  ⟨_, writeResult_eq s d u, h ▸ onlyWritesRegister_writeReg s d u⟩

/-- A compare in one step: its outcome and its frame. -/
theorem setFlag_onlyWrites (s : State) (f g : Bool) (h : f = g) :
    ∃ t, complete (s.setFlag f) = .next t ∧ OnlyWritesFlag g s t :=
  ⟨_, complete_eq _, h ▸ onlyWritesFlag_setFlag s f⟩

theorem complete_changesNothing (s : State) : ∃ t, complete s = .next t ∧ ChangesNothing s t :=
  ⟨_, complete_eq s, changesNothing_retire s⟩

/-! ### Immediate forms -/

/-- Settles O17: the ALU's sum and disjunction with the extended immediate. -/
theorem immediateArithmetic : Obligations.ImmediateArithmetic := fun d _ _ s =>
  ⟨writeResult_onlyWrites s d _ _ rfl, writeResult_onlyWrites s d _ _ rfl⟩

/-- An amount that the execute stage has masked shifts by the amount modulo 16 (46_pipeline.md R326). -/
theorem aluEval_sll_shiftAmount (a v : Word) : aluEval .sll a (shiftAmount v) = a <<< (v.toNat % 16) := by
  change shiftLeftLogical a (shiftAmount v) = _
  have h : v.toNat % 16 < 32 := by omega
  simp only [shiftLeftLogical, shiftAmount_toNat, h, if_true]

theorem aluEval_sra_shiftAmount (a v : Word) : aluEval .sra a (shiftAmount v) = a.sshiftRight (v.toNat % 16) := by
  change shiftRightArithmetic a (shiftAmount v) = _
  have h : v.toNat % 16 < 32 := by omega
  simp only [shiftRightArithmetic, shiftAmount_toNat, h, if_true]

/-- The sign of a six-bit amount does not reach its low four bits (R92). -/
theorem sext_toNat_mod (l : BitVec 6) : (sext l).toNat % 16 = l.toNat % 16 := by
  decide +revert

/-- `l.movhi` puts the immediate in the high half (R179, 90_conflicts.md C4). -/
theorem aluEval_sll_zext_16 (k : BitVec 16) : aluEval .sll (zext k) 16#32 = k ++ 0#16 := by
  apply BitVec.eq_of_toNat_eq
  have hk := k.isLt
  rw [toNat_aluEval_sll, BitVec.toNat_append]
  simp [zext, Nat.shiftLeft_eq]
  omega

/-- Settles O18, from what the ALU gives for a masked amount and for the shift by 16. -/
theorem shiftImmediateAndMoveHigh : Obligations.ShiftImmediateAndMoveHigh := fun d _ l k s =>
  ⟨writeResult_onlyWrites s d _ _ (by rw [aluEval_sll_shiftAmount, sext_toNat_mod]),
    writeResult_onlyWrites s d _ _ (by rw [aluEval_sra_shiftAmount, sext_toNat_mod]),
    writeResult_onlyWrites s d _ _ (aluEval_sll_zext_16 k)⟩

/-! ### The ADD family -/

/-- Settles O19, one ALU operation each; the register shifts mask their amount. -/
theorem registerArithmetic : Obligations.RegisterArithmetic := fun d _ _ s =>
  ⟨writeResult_onlyWrites s d _ _ rfl, writeResult_onlyWrites s d _ _ rfl, writeResult_onlyWrites s d _ _ rfl,
    writeResult_onlyWrites s d _ _ (aluEval_sll_shiftAmount _ _),
    writeResult_onlyWrites s d _ _ (aluEval_sra_shiftAmount _ _)⟩

/-- Settles O20: every stub of the allow-list is the one operation that writes 0. -/
theorem stubsWriteZero : Obligations.StubsWriteZero := by
  intro d a b l s i hi
  have h : exec i s = s.writeZero d := by
    simp only [List.mem_cons, List.not_mem_nil, or_false] at hi
    rcases hi with rfl | rfl | rfl | rfl | rfl | rfl | rfl | rfl | rfl | rfl | rfl | rfl | rfl | rfl | rfl | rfl | rfl | rfl | rfl <;>
      rfl
  rw [h]
  exact writeResult_onlyWrites s d _ _ rfl

/-! ### Compares -/

theorem compareFlag_eq (a b : Word) : compareFlag .eq a b = decide (a = b) := by
  by_cases h : a = b <;> simp [compareFlag, aluEval_eq, h]

theorem compareFlag_neq (a b : Word) : compareFlag .neq a b = decide (a ≠ b) := by
  by_cases h : a = b <;> simp [compareFlag, aluEval_neq, h]

theorem compareFlag_ge (a b : Word) : compareFlag .ge a b = decide (b.toInt ≤ a.toInt) := by
  by_cases h : b.toInt ≤ a.toInt <;> simp [compareFlag, aluEval_ge, h]

theorem compareFlag_le (a b : Word) : compareFlag .le a b = decide (a.toInt ≤ b.toInt) := by
  by_cases h : a.toInt ≤ b.toInt <;> simp [compareFlag, aluEval_le, h]

/-- The extension of an immediate keeps its signed reading (00_scope.md R10). -/
theorem toInt_sext_imm16 (i : BitVec 16) : (sext i).toInt = i.toInt := BitVec.toInt_signExtend_of_le (by decide)

/-- Settles O21: each compare writes the comparison of its tag. -/
theorem compares : Obligations.Compares := fun a b i s =>
  ⟨setFlag_onlyWrites s _ _ (compareFlag_eq _ _), setFlag_onlyWrites s _ _ (compareFlag_neq _ _),
    setFlag_onlyWrites s _ _ (compareFlag_ge _ _), setFlag_onlyWrites s _ _ (compareFlag_le _ _),
    setFlag_onlyWrites s _ _ (compareFlag_eq _ _), setFlag_onlyWrites s _ _ (compareFlag_neq _ _),
    setFlag_onlyWrites s _ _ (by rw [compareFlag_ge, toInt_sext_imm16]),
    setFlag_onlyWrites s _ _ (by rw [compareFlag_le, toInt_sext_imm16])⟩

/-- Settles O22: every stub compare is the completion alone. -/
theorem stubComparesChangeNothing : Obligations.StubComparesChangeNothing := by
  intro a b k s i hi
  have h : exec i s = complete s := by
    simp only [List.mem_cons, List.not_mem_nil, or_false] at hi
    rcases hi with rfl | rfl | rfl | rfl | rfl | rfl | rfl | rfl | rfl | rfl | rfl | rfl <;> rfl
  rw [h]
  exact complete_changesNothing s

/-! ### System and end-of-test words -/

/-- Settles O33: each of them is the completion alone. -/
theorem noEffectInstructions : Obligations.NoEffectInstructions := by
  intro d k n s i hi
  have h : exec i s = complete s := by
    simp only [List.mem_cons, List.not_mem_nil, or_false] at hi
    rcases hi with rfl | rfl | rfl | rfl | rfl | rfl | rfl <;> rfl
  rw [h]
  exact complete_changesNothing s

theorem exec_endOfTest (s : State) :
    exec .endOfTest s = .next { s with status := .ended, fetchDone := true, nCycles := s.nCycles + 1 } := rfl

/-- Settles O34: the end-of-test word touches `status`, `fetch_done` and the cycle count alone. -/
theorem endOfTestEnds : Obligations.EndOfTestEnds := fun s =>
  ⟨_, exec_endOfTest s, rfl, rfl, rfl, fun _ => rfl, fun _ => rfl, rfl, ⟨rfl, rfl⟩, rfl, rfl, rfl, rfl, rfl⟩

end Sys2Proof.Machine

/-! PROOFS. The loads and stores on any bus (43_load_store.md R240 to R257, R364). -/

namespace Sys2Proof.Machine

/-- Settles O23: the ALU's sum, with the displacement's signed reading modulo 2^32. -/
theorem effectiveAddressWraps : Obligations.EffectiveAddressWraps := by
  intro a i s
  have hi : (i.signExtend 32).toInt = i.toInt := BitVec.toInt_signExtend_of_le (by decide)
  have hr := (s.readReg a).isLt
  rw [effectiveAddress_eq, ← hi, BitVec.toInt_eq_toNat_cond, BitVec.toNat_add]
  split <;> omega

/-! ### Loads -/

theorem exec_lbs (d a : RegIdx) (i : BitVec 16) (s : State) : exec (.lbs d a i) s = s.load d a i 1 true := rfl

theorem exec_ld (d a : RegIdx) (i : BitVec 16) (s : State) : exec (.ld d a i) s = s.load d a i 8 false := rfl

theorem exec_sd (i : BitVec 16) (a b : RegIdx) (s : State) : exec (.sd i a b) s = s.store i a b 8 := rfl

/-- A load of the bytes the bus answers: outcome and frame (R241). -/
theorem load_onlyWrites (s : State) (d a : RegIdx) (i : BitVec 16) (n : Nat) (sx : Bool) (bytes : List Byte) (v : Word)
    (hn : validSize n = true) (hb : busRead s.bus s.mem (s.effectiveAddress a i).toNat n = some bytes)
    (hv : extendLoaded n sx (ofBigEndian 0#64 bytes) = v) :
    ∃ t, s.load d a i n sx = .next t ∧ OnlyWritesRegister d v s t := by
  rcases load_cases s d a i n sx hn with ⟨bytes', hb', h⟩ | ⟨hb', _⟩
  · cases hb.symm.trans hb'
    exact ⟨_, h, hv ▸ onlyWritesRegister_writeReg s d _⟩
  · cases hb.symm.trans hb'

/-- A load that the bus refuses (R364). -/
theorem load_refused (s : State) (d a : RegIdx) (i : BitVec 16) (n : Nat) (sx : Bool) (hn : validSize n = true)
    (hb : busRead s.bus s.mem (s.effectiveAddress a i).toNat n = none) :
    s.load d a i n sx = .fault (.dataAccessFailure (s.effectiveAddress a i)) := by
  rcases load_cases s d a i n sx hn with ⟨_, hb', _⟩ | ⟨_, h⟩
  · cases hb.symm.trans hb'
  · exact h

theorem extendLoaded_one_false (b : Byte) : extendLoaded 1 false (ofBigEndian 0#64 [b]) = b.setWidth 32 := by
  rw [ofBigEndian_one]
  simp [extendLoaded, BitVec.setWidth_setWidth_of_le]

theorem extendLoaded_one_true (b : Byte) : extendLoaded 1 true (ofBigEndian 0#64 [b]) = b.signExtend 32 := by
  rw [ofBigEndian_one]
  simp [extendLoaded, sext]

/-- Settles O24: four bytes as the big-endian word, which an extension does not change. -/
theorem wordLoads : Obligations.WordLoads := by
  intro d a i s x w hx hw
  obtain ⟨b0, b1, b2, b3, hb, rfl⟩ := busWord_eq_some s _ w hw
  simp only [List.mem_cons, List.not_mem_nil, or_false] at hx
  rcases hx with rfl | rfl | rfl
  all_goals exact load_onlyWrites s d a i 4 _ _ _ rfl hb (by rw [extendLoaded_four, ofBigEndian_four])

/-- Settles O25: one byte, extended with zeros but by `l.lbs`. -/
theorem byteLoads : Obligations.ByteLoads := by
  intro d a i s v hv
  have hb := busByte_eq_some s _ v hv
  refine ⟨fun x hx => ?_, load_onlyWrites s d a i 1 _ _ _ rfl hb (extendLoaded_one_true v)⟩
  simp only [List.mem_cons, List.not_mem_nil, or_false] at hx
  rcases hx with rfl | rfl | rfl | rfl
  all_goals exact load_onlyWrites s d a i 1 _ _ _ rfl hb (extendLoaded_one_false v)

/-- Settles O26: of eight bytes the low word is that of the last four. -/
theorem doubleLoad : Obligations.DoubleLoad := by
  intro d a i s w hw
  obtain ⟨b0, b1, b2, b3, b4, b5, b6, b7, hb, rfl⟩ := busLowWord_eq_some s _ w hw
  exact load_onlyWrites s d a i 8 _ _ _ rfl hb (ofBigEndian_eight ..)

/-! ### Stores -/

theorem onlyReplacesMemory_mem (s : State) (m : Memory) : OnlyReplacesMemory m s (State.retire { s with mem := m }) where
  memory := rfl
  registers := fun _ => rfl
  flag := rfl
  transfer := ⟨rfl, rfl⟩
  control := ⟨rfl, rfl, rfl, rfl, rfl⟩
  completed := ⟨rfl, rfl, rfl⟩

/-- On RAM the bytes of an accepted write are stored and no other byte changes. -/
theorem onlyStores_writeBytes (s : State) (first : Nat) (bytes : List Byte) (hw : s.mem.wf = true)
    (hb : first + bytes.length ≤ Config.addressSpace) :
    OnlyStores first bytes s (State.retire { s with mem := Memory.writeBytes s.mem first bytes }) where
  stored := readBytes_writeBytes s.mem first bytes hw hb
  memory := fun a ha => read_writeBytes_other s.mem first a bytes ha
  registers := fun _ => rfl
  flag := rfl
  transfer := ⟨rfl, rfl⟩
  control := ⟨rfl, rfl, rfl, rfl, rfl⟩
  completed := ⟨rfl, rfl, rfl⟩

/-- A store whose write the bus performs (R251). -/
theorem store_performed (s : State) (i : BitVec 16) (a b : RegIdx) (n : Nat) (m : Memory) (hn : validSize n = true)
    (hb : busWrite s.bus s.mem (s.effectiveAddress a i).toNat (toBigEndian n ((s.readReg b).setWidth 64)) = some m) :
    s.store i a b n = .next (State.retire { s with mem := m }) := by
  rcases store_cases s i a b n hn with ⟨m', hb', h⟩ | ⟨hb', _⟩
  · cases hb.symm.trans hb'
    exact h
  · cases hb.symm.trans hb'

/-- A store that the bus refuses (R364). -/
theorem store_refused (s : State) (i : BitVec 16) (a b : RegIdx) (n : Nat) (hn : validSize n = true)
    (hb : busWrite s.bus s.mem (s.effectiveAddress a i).toNat (toBigEndian n ((s.readReg b).setWidth 64)) = none) :
    s.store i a b n = .fault (.dataAccessFailure (s.effectiveAddress a i)) := by
  rcases store_cases s i a b n hn with ⟨_, hb', _⟩ | ⟨_, h⟩
  · cases hb.symm.trans hb'
  · exact h

/-- A store on any bus and on RAM: outcome and frame. -/
theorem store_frames (s : State) (i : BitVec 16) (a b : RegIdx) (n : Nat) (bytes : List Byte) (hn : validSize n = true)
    (hbytes : bytes = toBigEndian n ((s.readReg b).setWidth 64)) :
    (∀ m, busWrite s.bus s.mem (s.effectiveAddress a i).toNat bytes = some m →
      ∃ t, s.store i a b n = .next t ∧ OnlyReplacesMemory m s t) ∧
    (∀ r, s.bus = .ram r → s.mem.wf = true → ramAcceptsWrite r (s.effectiveAddress a i).toNat bytes.length = true →
      ∃ t, s.store i a b n = .next t ∧ OnlyStores (s.effectiveAddress a i).toNat bytes s t) := by
  subst hbytes
  refine ⟨fun m hm => ⟨_, store_performed s i a b n m hn hm, onlyReplacesMemory_mem s m⟩, fun r hr hw ha => ?_⟩
  refine ⟨_, store_performed s i a b n _ hn ?_, onlyStores_writeBytes s _ _ hw (ramAcceptsWrite_bound r _ _ ha)⟩
  rw [hr, busWrite_ram, if_pos ha]

/-- Settles O27: the store template with four bytes and with one. -/
theorem wordAndByteStores : Obligations.WordAndByteStores := by
  intro a b i s x bytes hx
  simp only [List.mem_cons, List.not_mem_nil, or_false] at hx
  rcases hx with ⟨rfl | rfl, rfl⟩ | ⟨rfl | rfl, rfl⟩
  · exact store_frames s i a b 4 _ rfl (toBigEndian_four _).symm
  · exact store_frames s i a b 4 _ rfl (toBigEndian_four _).symm
  · exact store_frames s i a b 1 _ rfl (toBigEndian_one _).symm
  · exact store_frames s i a b 1 _ rfl (toBigEndian_one _).symm

/-- Settles O28: the store template with eight bytes. -/
theorem doubleStore : Obligations.DoubleStore := by
  rintro a b i s bytes rfl
  exact store_frames s i a b 8 _ rfl (toBigEndian_eight _).symm

/-! ### Refused requests -/

/-- The default bus reads exactly the aligned requests inside the space (20_memory.md R52, R59). -/
theorem busRead_default_isSome (m : Memory) (a n : Nat) :
    (busRead Config.busDefault m a n).isSome = true ↔ a % n = 0 ∧ a + n ≤ 2 ^ 32 := by
  change _ ↔ a % n = 0 ∧ a + n ≤ Config.addressSpace
  unfold Config.busDefault
  rw [busRead_ram]
  simp [ramAcceptsRead, and_comm]

/-- The default bus writes exactly the aligned requests inside the space. -/
theorem busWrite_default_isSome (m : Memory) (a : Nat) (bytes : List Byte) :
    (busWrite Config.busDefault m a bytes).isSome = true ↔ a % bytes.length = 0 ∧ a + bytes.length ≤ 2 ^ 32 := by
  change _ ↔ a % bytes.length = 0 ∧ a + bytes.length ≤ Config.addressSpace
  unfold Config.busDefault
  rw [busWrite_ram]
  simp [ramAcceptsWrite, ramAcceptsRead, and_comm]

/-- An aligned request of a size that divides the space stays inside it. -/
theorem aligned_request_bound (a : Word) (n : Nat) (hn : n ∈ [1, 4, 8]) (ha : a.toNat % n = 0) : a.toNat + n ≤ 2 ^ 32 := by
  have := a.isLt
  simp only [List.mem_cons, List.not_mem_nil, or_false] at hn
  rcases hn with rfl | rfl | rfl <;> omega

/-- Settles O29: each request that is refused is the one of its template, and the default bus asks for alignment alone. -/
theorem refusedRequestFaults : Obligations.RefusedRequestFaults := by
  refine ⟨fun d a b i s => ⟨fun h x hx => ?_, fun h x hx => ?_, fun h => ?_, fun h x hx => ?_, fun h x hx => ?_, fun h => ?_⟩,
    fun m a bytes hn => ?_⟩
  · have hb := (busWord_eq_none s _).mp h
    simp only [List.mem_cons, List.not_mem_nil, or_false] at hx
    rcases hx with rfl | rfl | rfl
    all_goals exact load_refused s d a i 4 _ rfl hb
  · have hb := (busByte_eq_none s _).mp h
    simp only [List.mem_cons, List.not_mem_nil, or_false] at hx
    rcases hx with rfl | rfl | rfl | rfl | rfl
    all_goals exact load_refused s d a i 1 _ rfl hb
  · exact load_refused s d a i 8 _ rfl ((busLowWord_eq_none s _).mp h)
  · rw [← toBigEndian_four] at h
    simp only [List.mem_cons, List.not_mem_nil, or_false] at hx
    rcases hx with rfl | rfl
    all_goals exact store_refused s i a b 4 rfl h
  · rw [← toBigEndian_one] at h
    simp only [List.mem_cons, List.not_mem_nil, or_false] at hx
    rcases hx with rfl | rfl
    all_goals exact store_refused s i a b 1 rfl h
  · rw [← toBigEndian_eight] at h
    exact store_refused s i a b 8 rfl h
  · have hbound := aligned_request_bound a _ hn
    rw [← Option.not_isSome_iff_eq_none, ← Option.not_isSome_iff_eq_none, busRead_default_isSome, busWrite_default_isSome]
    exact ⟨by tauto, by tauto⟩

end Sys2Proof.Machine

/-! PROOFS. The jumps and branches (44_control_transfer.md R270 to R276). -/

namespace Sys2Proof.Machine

theorem onlyTransfers_transfer (s : State) (target : Word) : OnlyTransfers target s (s.transfer target).retire where
  npc := rfl
  ds := rfl
  registers := fun _ => rfl
  flag := rfl
  memory := fun _ => rfl
  control := ⟨rfl, rfl, rfl, rfl, rfl⟩
  completed := ⟨rfl, rfl, rfl⟩

/-- A taken transfer that writes no register: outcome and frame. -/
theorem complete_onlyTransfers (s : State) (target : Word) :
    ∃ t, complete (s.transfer target) = .next t ∧ OnlyTransfers target s t :=
  ⟨_, complete_eq _, onlyTransfers_transfer s target⟩

theorem exec_jal (n : BitVec 26) (s : State) :
    exec (.jal n) s =
      .next ((s.transfer (s.pc + jumpDisplacement n)).writeReg Config.linkRegister (s.pc + 8#32)).retire := rfl

theorem exec_bf (n : BitVec 26) (s : State) :
    exec (.bf n) s = complete (if s.flag then s.transfer (s.pc + jumpDisplacement n) else s) := rfl

theorem exec_bnf (n : BitVec 26) (s : State) :
    exec (.bnf n) s = complete (if s.flag then s else s.transfer (s.pc + jumpDisplacement n)) := rfl

/-- Settles O30: both transfer; the link is one register write on top. -/
theorem jumps : Obligations.Jumps := by
  refine fun n s => ⟨complete_onlyTransfers s _, _, exec_jal n s, ?_, fun i hi => ?_, ?_⟩
  · exact readReg_writeReg_self _ _ _
  · exact readReg_writeReg_other _ _ i _ hi
  · refine ⟨by simp [jumpDisplacement, sext], by simp, by simp, fun _ => by simp, ?_, ?_⟩
    · exact ⟨by simp, by simp, by simp, by simp, by simp⟩
    · exact ⟨by simp, by simp, by simp⟩

/-- Settles O31, by the flag. -/
theorem branches : Obligations.Branches := by
  intro n s
  refine ⟨fun h => ?_, fun h => ?_⟩ <;> rw [exec_bf, exec_bnf, h]
  · exact ⟨complete_onlyTransfers s _, complete_changesNothing s⟩
  · exact ⟨complete_onlyTransfers s _, complete_changesNothing s⟩

/-- Settles O32: both are a transfer and nothing else. -/
theorem registerJumps : Obligations.RegisterJumps := fun _ s =>
  ⟨complete_onlyTransfers s _, complete_onlyTransfers s _⟩

end Sys2Proof.Machine

/-! PROOFS. What an instruction can do, said once over all of them, and the claims on all instructions that follow (10_state.md R27, R29,
20_memory.md R50, R60, 60_exceptions.md R360). -/

namespace Sys2Proof.Machine

/-- Everything the meaning of an instruction can leave: one constructor per template of the effect, with the mnemonics that have it
where the claims below need them. -/
inductive ExecEffect (i : Instr) (s : State) : State → Prop
  /-- The stubs and system words, and a branch that is not taken. -/
  | nothing (hi : i ≠ .endOfTest) : ExecEffect i s s.retire
  /-- The instructions that only write a register. -/
  | register (hi : i ≠ .endOfTest) (d : RegIdx) (v : Word) : ExecEffect i s (s.writeReg d v).retire
  | flag (hi : i.mnemonic ∈ [.sfeq, .sfne, .sfges, .sfles, .sfeqi, .sfnei, .sfgesi, .sflesi]) (f : Bool) :
    ExecEffect i s (s.setFlag f).retire
  /-- A store, which keeps the canonical form of memory. -/
  | memory (hi : i.mnemonic ∈ [.sw, .swa, .sb, .sh, .sd]) (m : Memory) (hm : s.mem.wf = true → m.wf = true) :
    ExecEffect i s (State.retire { s with mem := m })
  /-- A transfer by a displacement. -/
  | jump (hi : i.mnemonic ∈ [.j, .bf, .bnf]) (n : BitVec 26) : ExecEffect i s (s.transfer (s.pc + jumpDisplacement n)).retire
  /-- A transfer by a displacement that links. -/
  | link (hi : i.mnemonic = .jal) (n : BitVec 26) :
    ExecEffect i s ((s.transfer (s.pc + jumpDisplacement n)).writeReg Config.linkRegister (s.pc + 8#32)).retire
  /-- A transfer by a register. -/
  | registerJump (hi : i.mnemonic ∈ [.jr, .jalr]) (v : Word) : ExecEffect i s (s.transfer (s.pc + v)).retire
  | ends (hi : i = .endOfTest) : ExecEffect i s { s with status := .ended, fetchDone := true, nCycles := s.nCycles + 1 }

theorem load_effect (x : Instr) (hx : x ≠ .endOfTest) (s t : State) (d a : RegIdx) (i : BitVec 16) (n : Nat) (sx : Bool)
    (h : s.load d a i n sx = .next t) : ExecEffect x s t := by
  obtain ⟨v, rfl⟩ := load_next s t d a i n sx h
  exact .register hx d v

theorem store_effect (x : Instr) (hx : x.mnemonic ∈ [.sw, .swa, .sb, .sh, .sd]) (s t : State) (i : BitVec 16) (a b : RegIdx)
    (n : Nat) (h : s.store i a b n = .next t) : ExecEffect x s t := by
  obtain ⟨m, rfl, hm⟩ := store_next s t i a b n h
  exact .memory hx m hm

/-- A branch transfers or only completes. -/
theorem branch_effect (x : Instr) (hx : x.mnemonic ∈ [.j, .bf, .bnf]) (s t : State) (n : BitVec 26) (c : Bool)
    (h : complete (if c then s.transfer (s.pc + jumpDisplacement n) else s) = .next t) : ExecEffect x s t := by
  cases h
  cases c
  · exact .nothing (by rintro rfl; exact absurd hx (by decide))
  · exact .jump hx n

/-- An instruction that answers a next state has one of the effects, by its constructor. -/
theorem exec_effect (i : Instr) (s t : State) (h : exec i s = .next t) : ExecEffect i s t := by
  cases i with
  | sfeq | sfne | sfges | sfles | sfeqi | sfnei | sfgesi | sflesi => cases h; exact .flag (by simp [Instr.mnemonic]) _
  | lwa | lwz | lws | lbz | lbs | lhz | lhs | lf | ld => exact load_effect _ (by nofun) s t _ _ _ _ _ h
  | swa | sw | sb | sh | sd => exact store_effect _ (by simp [Instr.mnemonic]) s t _ _ _ _ h
  | j n => exact branch_effect _ (by simp [Instr.mnemonic]) s t n true h
  | jal n => cases h; exact .link rfl n
  | bf n => exact branch_effect _ (by simp [Instr.mnemonic]) s t n s.flag h
  | bnf n =>
    refine branch_effect _ (by simp [Instr.mnemonic]) s t n (!s.flag) ?_
    rw [← h, exec_bnf]
    cases s.flag <;> rfl
  | jr | jalr => cases h; exact .registerJump (by simp [Instr.mnemonic]) _
  | sfgtu | sfgeu | sfltu | sfleu | sfgts | sflts | sfgtui | sfgeui | sfltui | sfleui | sfgtsi | sfltsi | nop | msync | psync |
    csync | sys | trap | adrp => cases h; exact .nothing (by nofun)
  | endOfTest => cases h; exact .ends rfl
  | _ => cases h; exact .register (by nofun) _ _

/-- Settles O36: each effect changes its own field, and the mnemonics that have it are named. -/
theorem onlyTheNamedInstructionsWrite : Obligations.OnlyTheNamedInstructionsWrite := by
  intro i s t h
  cases exec_effect i s t h with
  | flag hi => exact ⟨fun hn => absurd hi hn, by simp⟩
  | memory hi => exact ⟨by simp, fun hn => absurd hi hn, by simp⟩
  | jump hi | registerJump hi =>
    refine ⟨by simp, by simp, fun hn => absurd ?_ hn, by simp⟩
    simp only [List.mem_cons, List.not_mem_nil, or_false] at hi ⊢
    tauto
  | link hi => exact ⟨by simp, by simp, fun hn => absurd (by simp [hi]) hn, by simp⟩
  | ends hi => subst hi; simp
  | _ => simp

/-- Settles O37: no effect touches a latch or the cursor, and completing counts five cycles. -/
theorem execLeavesLatchesAndCountsCycles : Obligations.ExecLeavesLatchesAndCountsCycles := by
  intro i s t h
  have counted : ∀ P : List Mnemonic, .endOfTest ∉ P → i.mnemonic ∈ P → i ≠ .endOfTest := by
    rintro P hP hi rfl
    exact hP hi
  cases exec_effect i s t h with
  | nothing hi | register hi => simp [hi]
  | flag hi | memory hi | jump hi | registerJump hi => simp [counted _ (by decide) hi]
  | link hi => simp [counted [.jal] (by decide) (by simp [hi])]
  | ends hi => subst hi; simp

theorem toNat_add_mod_four (a b : Word) (ha : a.toNat % 4 = 0) (hb : b.toNat % 4 = 0) : (a + b).toNat % 4 = 0 := by
  rw [BitVec.toNat_add]
  omega

/-- A displacement counts words (40_alu_and_control.md R147). -/
theorem jumpDisplacement_mod_four (n : BitVec 26) : (jumpDisplacement n).toNat % 4 = 0 := by
  unfold jumpDisplacement
  rw [BitVec.toNat_shiftLeft, Nat.shiftLeft_eq]
  omega

/-- Settles O38: `PC` moves by 4, and the displacement of a jump counts words. -/
theorem alignmentKept : Obligations.AlignmentKept := by
  intro i s t hi hpc hnpc h
  cases exec_effect i s t h with
  | registerJump hr => exact absurd hr hi
  | jump _ n | link _ n => simpa [hpc] using toNat_add_mod_four s.pc _ hpc (jumpDisplacement_mod_four n)
  | ends => exact ⟨hpc, hnpc⟩
  | _ => simp [hpc, hnpc]

end Sys2Proof.Machine

/-! PROOFS. Memory behind RAM: the byte order of an access, the canonical form, and a load after a store (20_memory.md R52 to R57,
43_load_store.md R258). -/

namespace Sys2Proof.Machine

/-! ### Byte order -/

/-- A byte appended to an accumulator (R54). -/
theorem toNat_shiftLeft_or_byte (acc : BitVec 64) (b : Byte) :
    (acc <<< 8 ||| b.setWidth 64).toNat = (acc.toNat * 2 ^ 8 + b.toNat) % 2 ^ 64 := by
  have hb := b.isLt
  have h : acc <<< 8 ||| b.setWidth 64 = acc <<< 8 + b.setWidth 64 := by
    rw [BitVec.add_eq_or_of_and_eq_zero]
    apply BitVec.eq_of_getLsbD_eq
    intro k hk
    by_cases hk8 : k < 8
    · simp [hk8]
    · simp [BitVec.getLsbD_of_ge b k (by omega)]
  rw [h, BitVec.toNat_add, BitVec.toNat_shiftLeft, Nat.shiftLeft_eq, BitVec.toNat_setWidth]
  omega

/-- Reading the bytes of a value gives its low `8n` bits, after what was read before them (R54, R55). -/
theorem toNat_ofBigEndian_toBigEndian (n : Nat) (acc v : BitVec 64) :
    (ofBigEndian acc (toBigEndian n v)).toNat = (acc.toNat * 2 ^ (8 * n) + v.toNat % 2 ^ (8 * n)) % 2 ^ 64 := by
  induction n generalizing acc with
  | zero => simpa [toBigEndian, ofBigEndian, Nat.mod_one] using (Nat.mod_eq_of_lt acc.isLt).symm
  | succ n ih =>
    have hsplit : v.toNat % 2 ^ (8 * (n + 1)) = v.toNat / 2 ^ (8 * n) % 2 ^ 8 * 2 ^ (8 * n) + v.toNat % 2 ^ (8 * n) := by
      rw [show 8 * (n + 1) = 8 * n + 8 by ring, pow_add, Nat.mod_mul]
      ring
    rw [toBigEndian, ofBigEndian, ih, toNat_shiftLeft_or_byte, BitVec.extractLsb'_toNat, Nat.shiftRight_eq_div_pow, hsplit,
      Nat.add_mod, Nat.mod_mul_mod, ← Nat.add_mod]
    congr 1
    ring

theorem getElem?_readBytes (m : Memory) (a n k : Nat) (hk : k < n) : (Memory.readBytes m a n)[k]? = some (Memory.read m (a + k)) := by
  induction n generalizing a k with
  | zero => omega
  | succ n ih =>
    cases k with
    | zero => rfl
    | succ k =>
      rw [Memory.readBytes, List.getElem?_cons_succ, ih (a + 1) k (by omega)]
      congr 2
      omega

theorem getElem?_toBigEndian (n k : Nat) (v : BitVec 64) (hk : k < n) :
    (toBigEndian n v)[k]? = some (BitVec.ofNat 8 (v.toNat / 2 ^ (8 * (n - 1 - k)))) := by
  induction n generalizing k with
  | zero => omega
  | succ n ih =>
    cases k with
    | zero =>
      simp only [toBigEndian, List.getElem?_cons_zero, Nat.add_sub_cancel, Nat.sub_zero]
      congr 1
      apply BitVec.eq_of_toNat_eq
      rw [BitVec.extractLsb'_toNat, Nat.shiftRight_eq_div_pow, BitVec.toNat_ofNat]
    | succ k =>
      rw [toBigEndian, List.getElem?_cons_succ, ih k (by omega)]
      congr 5
      omega

/-- What an accepted write through the adapter onto RAM leaves. -/
theorem memWrite_ram (s : State) (r : Config.Ram) (addr : Word) (n : Nat) (v : BitVec 64) (m : Memory) (hb : s.bus = .ram r)
    (h : s.memWrite addr n v = .ok m) :
    validSize n = true ∧ ramAcceptsWrite r addr.toNat n = true ∧ m = Memory.writeBytes s.mem addr.toNat (toBigEndian n v) := by
  obtain ⟨hn, hw⟩ := memWrite_ok s addr n v m h
  rw [hb, busWrite_ram, toBigEndian_length] at hw
  split at hw
  · next ha => exact ⟨hn, ha, (Option.some.inj hw).symm⟩
  · cases hw

/-- What RAM answers to a read of bytes that an accepted write has just stored. -/
theorem busRead_writeBytes (r : Config.Ram) (m : Memory) (a : Nat) (bytes : List Byte) (hw : m.wf = true)
    (ha : ramAcceptsWrite r a bytes.length = true) :
    busRead (.ram r) (Memory.writeBytes m a bytes) a bytes.length = some bytes := by
  rw [busRead_ram, if_pos (ramAcceptsWrite_read r _ _ ha), readBytes_writeBytes m a bytes hw (ramAcceptsWrite_bound r _ _ ha)]

/-- Settles O39: the bytes written are the bytes read, and they are the value's low bits in order. -/
theorem writeThenRead : Obligations.WriteThenRead := by
  intro s r addr n v m hb hw h
  obtain ⟨hn, ha, rfl⟩ := memWrite_ram s r addr n v m hb h
  have hlen := toBigEndian_length n v
  have hbound := ramAcceptsWrite_bound r _ _ ha
  have hread := readBytes_writeBytes s.mem addr.toNat (toBigEndian n v) hw (by rwa [hlen])
  have hbus := busRead_writeBytes r s.mem addr.toNat (toBigEndian n v) hw (by rwa [hlen])
  rw [hlen] at hread hbus
  refine ⟨?_, fun k hk => ?_, fun a h => read_writeBytes_other _ _ _ _ (by rwa [hlen]), memWrite_wf s addr n v _ h hw⟩
  · rcases memRead_cases { s with mem := Memory.writeBytes s.mem addr.toNat (toBigEndian n v) } addr n with
      ⟨_, bytes, h1, h2⟩ | ⟨_, h1, _⟩ | ⟨h1, _⟩
    · rw [show ({ s with mem := Memory.writeBytes s.mem addr.toNat (toBigEndian n v) } : State).bus = .ram r from hb] at h1
      cases hbus.symm.trans h1
      rw [h2]
      congr 1
      apply BitVec.eq_of_toNat_eq
      rw [toNat_ofBigEndian_toBigEndian]
      simp
    · rw [show ({ s with mem := Memory.writeBytes s.mem addr.toNat (toBigEndian n v) } : State).bus = .ram r from hb] at h1
      cases hbus.symm.trans h1
    · rw [hn] at h1
      cases h1
  · have hk' := getElem?_readBytes (Memory.writeBytes s.mem addr.toNat (toBigEndian n v)) addr.toNat n k hk
    rw [hread, getElem?_toBigEndian n k v hk] at hk'
    exact (Option.some.inj hk').symm

/-! ### The canonical form -/

/-- The first listed address reads as its listed byte, and everything below it as unlisted. -/
theorem read_of_head (k low : Nat) (v : Byte) (rest : Memory) (h : Memory.wfFrom low ((k, v) :: rest) = true) :
    v ≠ unlistedByte ∧ Memory.wfFrom (k + 1) rest = true ∧ Memory.read ((k, v) :: rest) k = v ∧
      ∀ a, a < k → Memory.read ((k, v) :: rest) a = unlistedByte := by
  simp only [Memory.wfFrom, Bool.and_eq_true, decide_eq_true_eq, bne_iff_ne] at h
  obtain ⟨⟨⟨_, hk⟩, hv⟩, hrest⟩ := h
  refine ⟨hv, hrest, by simp [Memory.read], fun a ha => read_of_wfFrom_lt _ k a ?_ ha⟩
  simp [Memory.wfFrom, hk, hv, hrest]

/-- Canonical lists that read alike are equal, above any bound on their addresses. -/
theorem eq_of_read_eq (m m' : Memory) (low : Nat) (h : Memory.wfFrom low m = true) (h' : Memory.wfFrom low m' = true)
    (hr : ∀ a, Memory.read m a = Memory.read m' a) : m = m' := by
  induction m generalizing low m' with
  | nil =>
    cases m' with
    | nil => rfl
    | cons c' rest' =>
      obtain ⟨hv', _, hk', _⟩ := read_of_head c'.1 low c'.2 rest' h'
      exact absurd (hk'.symm.trans (hr c'.1).symm) hv'
  | cons c rest ih =>
    obtain ⟨k, v⟩ := c
    obtain ⟨hv, hrest, hk, hlow⟩ := read_of_head k low v rest h
    cases m' with
    | nil => exact absurd (hk.symm.trans (hr k)) hv
    | cons c' rest' =>
      obtain ⟨k', v'⟩ := c'
      obtain ⟨hv', hrest', hk', hlow'⟩ := read_of_head k' low v' rest' h'
      have hkk : k = k' := by
        rcases Nat.lt_trichotomy k k' with hlt | heq | hgt
        · exact absurd (hk.symm.trans ((hr k).trans (hlow' k hlt))) hv
        · exact heq
        · exact absurd (hk'.symm.trans ((hr k').symm.trans (hlow k' hgt))) hv'
      subst hkk
      have hvv : v = v' := hk.symm.trans ((hr k).trans hk')
      subst hvv
      refine congrArg _ (ih rest' (k + 1) hrest hrest' fun a => ?_)
      by_cases ha : a < k + 1
      · rw [read_of_wfFrom_lt rest _ a hrest ha, read_of_wfFrom_lt rest' _ a hrest' ha]
      · have hne : k ≠ a := by omega
        simpa [Memory.read, hne] using hr a

/-- Settles O40, by comparing the lists from their first addresses. -/
theorem canonicalMemoryIsUnique : Obligations.CanonicalMemoryIsUnique := fun m m' h h' hr => eq_of_read_eq m m' 0 h h' hr

/-! ### A load after a store -/

/-- On RAM a store that completes leaves its bytes where a load of the same address finds them. -/
theorem busRead_after_store (s t : State) (r : Config.Ram) (i : BitVec 16) (a b : RegIdx) (n : Nat) (hn : validSize n = true)
    (hb : s.bus = .ram r) (hw : s.mem.wf = true) (h : s.store i a b n = .next t) :
    busRead t.bus t.mem (s.effectiveAddress a i).toNat n = some (toBigEndian n ((s.readReg b).setWidth 64)) := by
  rcases store_cases s i a b n hn with ⟨m, hm, hs⟩ | ⟨_, hs⟩
  · cases hs.symm.trans h
    rw [hb, busWrite_ram] at hm
    split at hm
    · next ha =>
      cases hm
      have := busRead_writeBytes r s.mem _ _ hw ha
      rw [toBigEndian_length] at this
      simpa [hb] using this
    · cases hm
  · cases hs.symm.trans h

/-- What a load of stored bytes writes to its destination. -/
theorem load_after_store (s t : State) (r : Config.Ram) (i j : BitVec 16) (a b c d : RegIdx) (n : Nat) (sx : Bool) (v : Word)
    (hn : validSize n = true) (hb : s.bus = .ram r) (hw : s.mem.wf = true)
    (hea : t.effectiveAddress c j = s.effectiveAddress a i) (h : s.store i a b n = .next t)
    (hv : extendLoaded n sx (ofBigEndian 0#64 (toBigEndian n ((s.readReg b).setWidth 64))) = v) :
    ∃ u, t.load d c j n sx = .next u ∧ u.readReg d = if d = 0#5 then 0#32 else v := by
  have hread := busRead_after_store s t r i a b n hn hb hw h
  rw [← hea] at hread
  obtain ⟨u, hu, hwrites⟩ := load_onlyWrites t d c j n sx _ v hn hread hv
  exact ⟨u, hu, hwrites.result⟩

theorem extractLsb'_zero_eight (v : Word) : v.extractLsb' 0 8 = v.setWidth 8 := by
  rw [BitVec.setWidth_eq_extractLsb' (by decide)]

/-- Settles O41: the bytes stored are the bytes loaded, in each of the three sizes. -/
theorem loadAfterStore : Obligations.LoadAfterStore := by
  intro a b c d i j r s t hb hw hea
  refine ⟨fun h => ?_, fun h => ?_, fun h => ⟨?_, ?_⟩⟩
  · refine load_after_store s t r i j a b c d 4 false _ rfl hb hw hea h ?_
    rw [extendLoaded_four, toBigEndian_four, bytesOfWord, ofBigEndian_four, wordOfBytes_bytesOfWord]
  · refine load_after_store s t r i j a b c d 8 false _ rfl hb hw hea h ?_
    rw [toBigEndian_eight, bytesOfWord]
    exact (ofBigEndian_eight ..).trans (wordOfBytes_bytesOfWord _)
  · refine load_after_store s t r i j a b c d 1 false _ rfl hb hw hea h ?_
    rw [toBigEndian_one, extendLoaded_one_false, extractLsb'_zero_eight]
  · refine load_after_store s t r i j a b c d 1 true _ rfl hb hw hea h ?_
    rw [toBigEndian_one, extendLoaded_one_true, extractLsb'_zero_eight]

/-! ### What a bus answers -/

theorem busWord_ram (s : State) (r : Config.Ram) (a : Word) (h : s.bus = .ram r) :
    s.busWord a = if ramAcceptsRead r a.toNat 4 then some (wordAt s.mem a.toNat) else none := by
  unfold State.busWord
  rw [h, busRead_ram]
  split_ifs <;> rfl

theorem busByte_ram (s : State) (r : Config.Ram) (a : Word) (h : s.bus = .ram r) :
    s.busByte a = if ramAcceptsRead r a.toNat 1 then some (Memory.read s.mem a.toNat) else none := by
  unfold State.busByte
  rw [h, busRead_ram]
  split_ifs <;> rfl

theorem busLowWord_ram (s : State) (r : Config.Ram) (a : Word) (h : s.bus = .ram r) :
    s.busLowWord a = if ramAcceptsRead r a.toNat 8 then some (wordAt s.mem (a.toNat + 4)) else none := by
  unfold State.busLowWord
  rw [h, busRead_ram]
  split_ifs <;> rfl

/-- Settles O60, from what each form of bus answers. -/
theorem busAnswers : Obligations.BusAnswers :=
  ⟨busRead_length, fun b m m' a bytes hw h => busWrite_wf b m m' a bytes h hw,
    fun r s a h => ⟨busWord_ram s r a h, busByte_ram s r a h, busLowWord_ram s r a h⟩,
    fun m a n bytes => ⟨busRead_default_isSome m a n, busWrite_default_isSome m a bytes⟩⟩

end Sys2Proof.Machine

/-! PROOFS. Reset and the host's set-up (10_state.md R40, 70_reset_and_hazards.md R380 to R383). -/

namespace Sys2Proof.Machine

/-- Settles O12, field by field. -/
theorem resetValues : Obligations.ResetValues := by
  refine ⟨?_, fun _ _ _ _ => rfl, rfl⟩
  rintro p e b m s rfl
  exact ⟨rfl, rfl, rfl, rfl, resetWith_readReg p e b m, rfl, rfl, rfl, rfl, rfl, rfl, rfl, rfl, rfl, rfl, rfl, rfl, rfl, rfl⟩

/-- A start state has nothing in flight, so it has the invariant. -/
theorem inv_of_startState (s : State) (h : StartState s) : Inv s := by
  obtain ⟨hifid, hidex, hexm, hmwb⟩ := h.latches
  obtain ⟨_, _, _, hcursor⟩ := h.cells
  obtain ⟨hstatus, hfetch⟩ := h.running
  obtain ⟨hissued, hretired, hcycles⟩ := h.counters
  exact
    { memory := h.memory
      ifid := fun l hl => by rw [(out_eq_none_iff _).mpr hifid] at hl; cases hl
      idex := fun l hl => by rw [(out_eq_none_iff _).mpr hidex] at hl; cases hl
      exm := fun l hl => by rw [(out_eq_none_iff _).mpr hexm] at hl; cases hl
      mwb := fun l hl => by rw [(out_eq_none_iff _).mpr hmwb] at hl; cases hl
      endedFetched := by simp [hstatus]
      fetchStopped := by simp [hfetch]
      endedDrained := by simp [hstatus]
      pcFollows := fun _ l hl => by rw [(out_eq_none_iff _).mpr hifid] at hl; cases hl
      pipelinedCounts := by simp [State.inFlight, hidex, hexm, hmwb, hissued, hretired]
      resident := by simp [State.residentLatchFull, hcursor]
      runningCounts := by simp [State.issuedInRound, hcursor, hissued, hretired, hcycles]
      endedCounts := by simp [hstatus] }

theorem startState_resetWith (p : Bool) (e : Word) (b : Config.Bus) (m : Memory) (hm : m.wf = true) :
    StartState (State.resetWith p e b m) where
  memory := hm
  latches := ⟨rfl, rfl, rfl, rfl⟩
  cells := ⟨rfl, rfl, rfl, rfl⟩
  running := ⟨rfl, rfl⟩
  counters := ⟨rfl, rfl, rfl⟩

/-- What the host's set-up leaves: the reset state but for memory, the registers and `PC` (R383). -/
theorem hostSetUp_some (s t : State) (p : Bool) (e : Word) (b : Config.Bus) (image : List (Nat × List Byte))
    (values : List (RegIdx × Word)) (entry : Word) (hm : s.mem.wf = true)
    (h : s.hostSetUp p e b image values entry = some t) :
    ∃ m : Memory, m.wf = true ∧ t = ((State.resetWith p e b m).hostSetRegisters values).hostSetEntry entry := by
  unfold State.hostSetUp at h
  split at h
  · next u hu =>
    obtain ⟨hwf, hu'⟩ := hostRequests_some _ u image hu
    refine ⟨u.mem, hwf hm, ?_⟩
    rw [← Option.some.inj h, hu']
    rfl
  · cases h

/-- The last value a register was given is the one it reads (R383, R22). -/
theorem readReg_hostSetRegisters_last (s : State) (earlier later : List (RegIdx × Word)) (i : RegIdx) (v : Word)
    (hl : ∀ w, (i, w) ∉ later) (hi : i ≠ 0#5) : (s.hostSetRegisters (earlier ++ (i, v) :: later)).readReg i = v := by
  rw [hostSetRegisters_append, State.hostSetRegisters, readReg_hostSetRegisters_other _ later i hl, State.hostSetRegister,
    readReg_writeReg_self, if_neg hi]

/-- Initial register values and the entry point leave a start state one. -/
theorem startState_hostSetUp (s : State) (values : List (RegIdx × Word)) (entry : Word) (h : StartState s) :
    StartState ((s.hostSetRegisters values).hostSetEntry entry) := by
  rw [hostSetRegisters_eq]
  exact { h with }

/-- Settles O42: reset is a start state, and so is what the host makes of it. -/
theorem resetHasInvariant : Obligations.ResetHasInvariant := by
  refine ⟨fun p e b m hm => inv_of_startState _ (startState_resetWith p e b m hm), ?_⟩
  intro s t p e b image values entry hm h
  obtain ⟨m, hwf, rfl⟩ := hostSetUp_some s t p e b image values entry hm h
  have hstart := startState_hostSetUp _ values entry (startState_resetWith p e b m hwf)
  have hparams := hostSetRegisters_eq (State.resetWith p e b m) values
  refine ⟨hstart, inv_of_startState _ hstart, rfl, ?_, ?_, ?_, ?_, ?_⟩
  · rw [hparams]; rfl
  · rw [hparams]; rfl
  · rw [hparams]; rfl
  · rintro earlier i v later rfl hl hi
    exact readReg_hostSetRegisters_last _ earlier later i v hl hi
  · rintro i (rfl | hi)
    · rfl
    · exact (readReg_hostSetRegisters_other _ values i hi).trans (resetWith_readReg p e b m i)

end Sys2Proof.Machine

/-! PROOFS. The instruction-level step: what it runs, when it stops, and that nothing is refused (46_pipeline.md R340, R345,
60_exceptions.md R360 to R362). -/

namespace Sys2Proof.Machine

/-- The delay-slot protocol changes `PC` and `DS` alone (46_pipeline.md R315). -/
theorem applyDelaySlot_eq (s : State) :
    s.applyDelaySlot = { s with pc := s.fetchAddress, ds := if s.ds = 1 then 2 else 0 } := by
  unfold State.applyDelaySlot State.fetchAddress
  have hds : s.ds = 0 ∨ s.ds = 1 ∨ s.ds = 2 := by omega
  rcases hds with h | h | h
  · cases s
    simp_all
  · simp [h]
  · simp [h]

section

variable (s : State) (hr : s.status = .running) (hp : s.pipelined = false) (hc : s.cursor = 0) (hf : s.fetchDone = false)

include hr hp hc hf

/-- A step between two instructions is `Step`. -/
theorem step_at_boundary : step s = instructionStep s :=
  step_boundary s hr ((atInstructionBoundary_iff s).mpr ⟨hp, hc, hf⟩)

theorem step_decoded (w : Word) (i : Instr) (hw : s.busWord s.fetchAddress = some w) (hi : decode s.endWord w = .ok i) :
    step s = exec i s.applyDelaySlot := by
  have hfetch := applyDelaySlot_fetchWord s
  rw [hw] at hfetch
  rw [step_at_boundary s hr hp hc hf, instructionStep, hfetch]
  simp only [hi]

theorem step_illegal (w : Word) (r : Reject) (hw : s.busWord s.fetchAddress = some w) (hi : decode s.endWord w = .error r) :
    step s = .fault (.illegalInstruction s.fetchAddress w) := by
  have hfetch := applyDelaySlot_fetchWord s
  rw [hw] at hfetch
  rw [step_at_boundary s hr hp hc hf, instructionStep, hfetch]
  simp only [hi, applyDelaySlot_pc, raise]

theorem step_fetch_refused (hw : s.busWord s.fetchAddress = none) :
    step s = .fault (.instructionFetchFailure s.fetchAddress) := by
  have hfetch := applyDelaySlot_fetchWord s
  rw [hw] at hfetch
  rw [step_at_boundary s hr hp hc hf, instructionStep, hfetch]
  simp only [raise]

end

/-- Settles O13, with the delay-slot protocol written out. -/
theorem stepRunsDecodedInstruction : Obligations.StepRunsDecodedInstruction := by
  intro s w i hr hp hc hf hw hi
  rw [step_decoded s hr hp hc hf w i hw hi, applyDelaySlot_eq]

/-- On the default bus a word is refused exactly at an unaligned address (20_memory.md R60). -/
theorem busWord_default_eq_none (s : State) (a : Word) (hb : s.bus = Config.busDefault) :
    s.busWord a = none ↔ a.toNat % 4 ≠ 0 := by
  rw [busWord_eq_none, hb, ← Option.not_isSome_iff_eq_none, busRead_default_isSome]
  have := aligned_request_bound a 4 (by decide)
  tauto

/-- Settles O14, from the three ways `Step` can go. -/
theorem fetchAndDecodeFaults : Obligations.FetchAndDecodeFaults :=
  ⟨fun s hr hp hc hf hw => step_fetch_refused s hr hp hc hf hw,
    fun s w r hr hp hc hf hw hi => step_illegal s hr hp hc hf w r hw hi, busWord_default_eq_none⟩

/-- Settles O15: both levels look at `status` first. -/
theorem stoppedCoreStays : Obligations.StoppedCoreStays := by
  refine ⟨fun s h => ⟨?_, ?_⟩, fun s r h => ⟨?_, ?_⟩⟩
  · simp only [step, h]
  · simp only [cycle, h]
  · simp only [step, h, raise]
  · simp only [cycle, h, raise]

theorem load_ne_refused (s : State) (d a : RegIdx) (i : BitVec 16) (n : Nat) (sx : Bool) (r : Refusal) :
    s.load d a i n sx ≠ .refused r := by
  unfold State.load complete raise
  split <;> nofun

theorem store_ne_refused (s : State) (i : BitVec 16) (a b : RegIdx) (n : Nat) (r : Refusal) : s.store i a b n ≠ .refused r := by
  unfold State.store complete raise
  split <;> nofun

/-- Every instruction has its meaning: it completes, or its one request is refused by the bus. -/
theorem exec_ne_refused (i : Instr) (s : State) (r : Refusal) : exec i s ≠ .refused r := by
  cases i with
  | lwa | lwz | lws | lbz | lbs | lhz | lhs | lf | ld => exact load_ne_refused s _ _ _ _ _ r
  | swa | sw | sb | sh | sd => exact store_ne_refused s _ _ _ _ r
  | _ => nofun

theorem cycle_ne_refused (s : State) (r : Refusal) : cycle s ≠ .refused r := by
  unfold cycle runningCycle raise
  split
  · split <;> nofun
  · nofun
  · nofun

/-- Settles O16: a step is a cycle, a fault, or the meaning of an instruction. -/
theorem nothingIsRefused : Obligations.NothingIsRefused := by
  refine fun s r => ⟨?_, cycle_ne_refused s r⟩
  unfold step
  split
  · split
    · rcases instructionStep_cases s with ⟨f, _, h⟩ | ⟨w, f, _, _, h⟩ | ⟨w, i, _, _, h⟩
      · rw [h]; nofun
      · rw [h]; nofun
      · rw [h]; exact exec_ne_refused i _ r
    · exact cycle_ne_refused s r
  · nofun
  · nofun

end Sys2Proof.Machine

/-! PROOFS. What the stages answer in a cycle that raises nothing, and the state such a cycle leaves (46_pipeline.md R315 to R344). -/

namespace Sys2Proof.Machine

/-! ### The answers of the stages -/

/-- What execute passes on of ID/EX, with its result (R313, R324). -/
def IdEx.executed (l : IdEx) (v : Word) : ExM :=
  { pc := l.pc, instr := l.instr, ctl := l.ctl, aluOut := v, rs2Val := l.rs2Val, rd := l.rd, link := l.link }

/-- What the memory stage passes on of EX/M, with the value its access brings (R314, R331). -/
def ExM.accessed (l : ExM) (v : Word) : MWb :=
  { pc := l.pc, instr := l.instr, ctl := l.ctl, aluOut := l.aluOut, memOut := v, rd := l.rd, link := l.link }

@[simp] theorem executed_pc (l : IdEx) (v : Word) : (l.executed v).pc = l.pc := rfl
@[simp] theorem executed_instr (l : IdEx) (v : Word) : (l.executed v).instr = l.instr := rfl
@[simp] theorem executed_ctl (l : IdEx) (v : Word) : (l.executed v).ctl = l.ctl := rfl
@[simp] theorem executed_aluOut (l : IdEx) (v : Word) : (l.executed v).aluOut = v := rfl
@[simp] theorem executed_rs2Val (l : IdEx) (v : Word) : (l.executed v).rs2Val = l.rs2Val := rfl
@[simp] theorem executed_rd (l : IdEx) (v : Word) : (l.executed v).rd = l.rd := rfl
@[simp] theorem executed_link (l : IdEx) (v : Word) : (l.executed v).link = l.link := rfl
@[simp] theorem accessed_pc (l : ExM) (v : Word) : (l.accessed v).pc = l.pc := rfl
@[simp] theorem accessed_instr (l : ExM) (v : Word) : (l.accessed v).instr = l.instr := rfl
@[simp] theorem accessed_ctl (l : ExM) (v : Word) : (l.accessed v).ctl = l.ctl := rfl
@[simp] theorem accessed_aluOut (l : ExM) (v : Word) : (l.accessed v).aluOut = l.aluOut := rfl
@[simp] theorem accessed_memOut (l : ExM) (v : Word) : (l.accessed v).memOut = v := rfl
@[simp] theorem accessed_rd (l : ExM) (v : Word) : (l.accessed v).rd = l.rd := rfl
@[simp] theorem accessed_link (l : ExM) (v : Word) : (l.accessed v).link = l.link := rfl

/-- The three answers of a fetch that the bus does not refuse: it has stopped, it meets `END_WORD`, it brings a word (R315 to R317). -/
inductive FetchAnswer (s : State) : State → Option IfId → Prop
  | stopped (hd : s.fetchDone = true) : FetchAnswer s s none
  | ends (hd : s.fetchDone = false) (hw : s.busWord s.fetchAddress = some s.endWord) :
    FetchAnswer s { s.applyDelaySlot with fetchDone := true } none
  | word (hd : s.fetchDone = false) (w : Word) (hw : s.busWord s.fetchAddress = some w) (he : w ≠ s.endWord) :
    FetchAnswer s s.applyDelaySlot (some { pc := s.fetchAddress, iw := w })

/-- The word the fetch reads is the bus' word at the fetch address. -/
theorem busWord_of_fetchWord (s : State) (w : Word) (h : s.applyDelaySlot.fetchWord = .ok w) :
    s.busWord s.fetchAddress = some w := by
  rw [applyDelaySlot_fetchWord] at h
  cases hb : s.busWord s.fetchAddress <;> simp_all

theorem fetchPropagate_answer (s s1 : State) (f : Option IfId) (h : fetchPropagate s = .ok (s1, f)) : FetchAnswer s s1 f := by
  rcases fetchPropagate_cases s with ⟨hd, h'⟩ | ⟨_, r, _, h'⟩ | ⟨hd, hw, h'⟩ | ⟨hd, w, he, hw, h'⟩
  · cases h'.symm.trans h
    exact .stopped hd
  · cases h'.symm.trans h
  · cases h'.symm.trans h
    exact .ends hd (busWord_of_fetchWord s _ hw)
  · cases h'.symm.trans h
    exact .word hd w (busWord_of_fetchWord s w hw) he

/-- Decode passes a bubble on, or the instruction its word resolves to (R319 to R321). -/
inductive DecodeAnswer (s : State) : Option DecodeOutput → Prop
  | bubble (hl : s.ifid.out = none) : DecodeAnswer s none
  | resolved (l : IfId) (m : Mnemonic) (hl : s.ifid.out = some l) (hm : resolve s.endWord l.iw = .ok m) :
    DecodeAnswer s (some (decodeResolved s l m))

theorem decodePropagate_answer (s : State) (d : Option DecodeOutput) (h : decodePropagate s = .ok d) : DecodeAnswer s d := by
  rcases decodePropagate_cases s with ⟨hl, h'⟩ | ⟨l, m, hl, hm, h'⟩ | ⟨l, r, _, _, h'⟩
  · cases h'.symm.trans h
    exact .bubble hl
  · cases h'.symm.trans h
    exact .resolved l m hl hm
  · cases h'.symm.trans h

/-- Execute passes a bubble on, or its result (R324 to R328). -/
inductive ExecuteAnswer (s : State) : Option ExM → Prop
  | bubble (hl : s.idex.out = none) : ExecuteAnswer s none
  | result (l : IdEx) (v : Word) (hl : s.idex.out = some l) (hv : executeResult l = .ok v) : ExecuteAnswer s (some (l.executed v))

theorem executePropagate_answer (s : State) (e : Option ExM) (h : executePropagate s = .ok e) : ExecuteAnswer s e := by
  unfold executePropagate at h
  split at h
  · next hl => cases h; exact .bubble hl
  · next l hl =>
    split at h
    · next v hv => cases h; exact .result l v hl hv
    · cases h

/-- The memory stage passes a bubble on, or what its access brings (R330, R331). -/
inductive MemoryAnswer (s : State) : Memory × Option MWb → Prop
  | bubble (hl : s.exm.out = none) : MemoryAnswer s (s.mem, none)
  | access (l : ExM) (m : Memory) (v : Word) (hl : s.exm.out = some l) (ha : memoryAccess s l = .ok (m, v)) :
    MemoryAnswer s (m, some (l.accessed v))

theorem memoryStage_answer (s : State) (o : Memory × Option MWb) (h : memoryStage s = .ok o) : MemoryAnswer s o := by
  unfold memoryStage at h
  split at h
  · next hl => cases h; exact .bubble hl
  · next l hl =>
    split at h
    · next m v ha => cases h; exact .access l m v hl ha
    · cases h

/-- An access keeps the canonical form of memory, and what does not load brings 0. -/
theorem memoryAccess_ok (s : State) (l : ExM) (m : Memory) (v : Word) (h : memoryAccess s l = .ok (m, v)) :
    (s.mem.wf = true → m.wf = true) ∧ (l.ctl.memMode ≠ .store → m = s.mem) ∧ (l.ctl.memMode ≠ .load → v = 0#32) := by
  unfold memoryAccess at h
  split at h
  · next hm => cases h; simp
  · next hm =>
    split at h
    · cases h; simp [hm]
    · cases h
  · next hm =>
    split at h
    · next m' hw => cases h; exact ⟨memWrite_wf _ _ _ _ _ hw, by simp [hm], by simp⟩
    · cases h

/-! ### The state a cycle leaves -/

/-- A cycle of a running pipelined core that raises nothing: the answers of its stages and the state they leave (R341). -/
theorem pipelined_cycle (s t : State) (hr : s.status = .running) (hp : s.pipelined = true) (h : cycle s = .next t) :
    ∃ s1 f d e m, FetchAnswer s s1 f ∧ DecodeAnswer s d ∧ ExecuteAnswer s e ∧ MemoryAnswer s m ∧
      t = (writeBackClock (memoryClock (executeClock (decodeClock (fetchClock s1 f) d) e) m) s.mwb.out).endCycle := by
  obtain ⟨u, hu, rfl⟩ := cycle_pipelined_next s t hr hp h
  obtain ⟨s1, f, d, e, m, hf, hd, he, hm, rfl⟩ := pipelinedStages_ok s u hu
  exact ⟨s1, f, d, e, m, fetchPropagate_answer s s1 f hf, decodePropagate_answer s d hd, executePropagate_answer s e he,
    memoryStage_answer s m hm, rfl⟩

/-- The one stage that acts in a non-pipelined cycle, and the state it leaves (R342). -/
inductive ActiveAnswer (s : State) : State → Prop
  | fetch (hc : s.cursor = 0) (s1 : State) (f : Option IfId) (hf : FetchAnswer s s1 f) : ActiveAnswer s (fetchClock s1 f)
  | decode (hc : s.cursor = 1) (d : Option DecodeOutput) (hd : DecodeAnswer s d) : ActiveAnswer s (decodeClock s d)
  | execute (hc : s.cursor = 2) (e : Option ExM) (he : ExecuteAnswer s e) : ActiveAnswer s (executeClock s e)
  | memory (hc : s.cursor = 3) (m : Memory × Option MWb) (hm : MemoryAnswer s m) : ActiveAnswer s (memoryClock s m)
  | writeBack (hc : s.cursor = 4) : ActiveAnswer s (writeBackClock s s.mwb.out)

theorem activeStage_answer (s t : State) (h : activeStage s = .ok t) : ActiveAnswer s t := by
  unfold activeStage at h
  split at h
  · next hc =>
    split at h
    · next s1 f hf => cases h; exact .fetch hc s1 f (fetchPropagate_answer s s1 f hf)
    · cases h
  · next hc =>
    split at h
    · next d hd => cases h; exact .decode hc d (decodePropagate_answer s d hd)
    · cases h
  · next hc =>
    split at h
    · next e he => cases h; exact .execute hc e (executePropagate_answer s e he)
    · cases h
  · next hc =>
    split at h
    · next m hm => cases h; exact .memory hc m (memoryStage_answer s m hm)
    · cases h
  · next hc => cases h; exact .writeBack hc

/-- A cycle of a running non-pipelined core that raises nothing (R342). -/
theorem roundRobin_cycle (s t : State) (hr : s.status = .running) (hp : s.pipelined = false) (h : cycle s = .next t) :
    ∃ u, ActiveAnswer s u ∧ t = State.endCycle { u with cursor := u.cursor + 1 } := by
  obtain ⟨u, hu, rfl⟩ := cycle_roundRobin_next s t hr hp h
  exact ⟨u, activeStage_answer s u hu, rfl⟩

/-- A cycle that answers a next state starts from a running core, or from one that has ended and stays. -/
theorem cycle_next_cases (s t : State) (h : cycle s = .next t) : s.status = .running ∨ (s.status = .ended ∧ t = s) := by
  unfold cycle at h
  split at h
  · next hr => exact .inl hr
  · next he => exact .inr ⟨he, (Host.Outcome.next.inj h).symm⟩
  · cases h

end Sys2Proof.Machine

/-! PROOFS. What one cycle does to the latches, the registers and the shared cells (46_pipeline.md R315 to R344, 10_state.md R20 to R34). -/

namespace Sys2Proof.Machine

/-! ### The latches -/

/-- Settles O48: each latch is what its stage answers to the latch on its left. -/
theorem pipelinedLatchesAdvance : Obligations.PipelinedLatchesAdvance := by
  intro s t hr hp h
  obtain ⟨s1, f, d, e, m, hf, hd, he, hm, rfl⟩ := pipelined_cycle s t hr hp h
  have hissued : s1.nIssued = s.nIssued := by cases hf <;> simp
  have hretired : s1.nRetired = s.nRetired := by cases hf <;> simp
  have hcycles : s1.nCycles = s.nCycles := by cases hf <;> simp
  refine ⟨?_, ?_, ?_, ?_, ?_, ?_⟩
  · cases hd with
    | bubble hl => simp [hl]
    | resolved l k hl => simp [hl, decodeResolved]
  · cases he with
    | bubble hl => simp [hl]
    | result l v hl => simp [hl]
  · cases hm with
    | bubble hl => simp [hl]
    | access l m v hl => simp [hl]
  · rw [← out_isSome s.ifid]
    cases hd with
    | bubble hl => simp [hl, hissued]
    | resolved l k hl => simp [hl, hissued]
  · simp [hretired]
  · simp [hcycles]

/-- What decode puts into ID/EX when it acts (R319, R320). -/
theorem idex_of_decode (s t : State) (l : IfId) (hr : s.status = .running) (hc : s.pipelined = false → s.cursor = 1)
    (h : cycle s = .next t) (hl : s.ifid.out = some l) :
    ∃ m, resolve s.endWord l.iw = .ok m ∧ t.idex.out = some (decodeResolved s l m).latch := by
  have key : ∀ d, DecodeAnswer s d → t.idex.out = d.map (·.latch) →
      ∃ m, resolve s.endWord l.iw = .ok m ∧ t.idex.out = some (decodeResolved s l m).latch := by
    intro d hd ht
    cases hd with
    | bubble hl' => cases hl.symm.trans hl'
    | resolved l' m hl' hm =>
      cases hl.symm.trans hl'
      exact ⟨m, hm, ht⟩
  cases hp : s.pipelined with
  | true =>
    obtain ⟨s1, f, d, e, m, _, hd, _, _, rfl⟩ := pipelined_cycle s t hr hp h
    exact key d hd (by simp)
  | false =>
    obtain ⟨u, hu, rfl⟩ := roundRobin_cycle s t hr hp h
    have hc1 := hc hp
    cases hu with
    | decode _ d hd => exact key d hd (by simp)
    | fetch hc' | execute hc' | memory hc' | writeBack hc' =>
      rw [hc1] at hc'
      exact absurd hc' (by decide)

/-- Settles O49: the latch is read off the state as the cycle began. -/
theorem decodeReadsOldRegisters : Obligations.DecodeReadsOldRegisters := by
  intro s t l hr hc h hl
  obtain ⟨m, hm, ht⟩ := idex_of_decode s t l hr hc h hl
  exact ⟨m, _, hm, ht, rfl, rfl, rfl, rfl, rfl, rfl, rfl, rfl⟩

/-- Settles O53: fetch's answer is about the state as the cycle began. -/
theorem fetchReadsMemoryBeforeTheStore : Obligations.FetchReadsMemoryBeforeTheStore := by
  intro s t l hr hp h hl
  obtain ⟨s1, f, d, e, m, hf, _, _, _, rfl⟩ := pipelined_cycle s t hr hp h
  cases hf with
  | word hd w hw he =>
    obtain rfl : _ = l := by simpa using hl
    exact ⟨rfl, hw, he, by simp⟩
  | stopped | ends => simp at hl

/-! ### The end of a run -/

/-- A cycle ends with `fetch_done` at least as it began, and a cycle that sets it fetches nothing (R317). -/
theorem FetchAnswer.endOfFetch (s s1 : State) (f : Option IfId) (hf : FetchAnswer s s1 f) :
    s1.status = s.status ∧ s1.pipelined = s.pipelined ∧
    (s.fetchDone = false → s1.fetchDone = true →
      s1.pc = s.fetchAddress ∧ s.busWord s.fetchAddress = some s.endWord ∧ f = none) ∧
    (s.fetchDone = true → s1.fetchDone = true) := by
  cases hf with
  | stopped hd => simp [hd]
  | ends hd hw => simp [hd, hw]
  | word hd => simp [hd]

/-- The termination check by what the stages left (R344). -/
theorem status_endCycle (u s : State) (hr : s.status = .running) (hs : u.status = s.status) (hp : u.pipelined = s.pipelined) :
    (u.endCycle.status = .ended ↔ u.fetchDone = true ∧ (s.pipelined = true → u.drained = true)) ∧
    (u.endCycle.status = .running ∨ u.endCycle.status = .ended) := by
  rw [endCycle_status, hs, hr, hp]
  cases u.fetchDone <;> cases s.pipelined <;> cases u.drained <;> simp

/-- The end of a cycle leaves the latches as they are. -/
@[simp] theorem endCycle_drained (s : State) : s.endCycle.drained = s.drained := by
  unfold State.drained
  simp

/-- Settles O55: the termination check, and fetch's answer in the cycle that reads `END_WORD`. -/
theorem termination : Obligations.Termination := by
  intro s t hr h
  cases hp : s.pipelined with
  | true =>
    obtain ⟨s1, f, d, e, m, hf, _, _, _, rfl⟩ := pipelined_cycle s t hr hp h
    obtain ⟨hs, hp1, hend, hstop⟩ := FetchAnswer.endOfFetch s s1 f hf
    obtain ⟨h1, h2⟩ := status_endCycle (writeBackClock (memoryClock (executeClock (decodeClock (fetchClock s1 f) d) e) m)
      s.mwb.out) s hr (by simpa using hs) (by simpa using hp1)
    rw [hp] at h1
    refine ⟨by simpa using h1, h2, fun h0 h1 => ?_, fun h0 => by simpa using hstop h0⟩
    obtain ⟨hpc, hw, rfl⟩ := hend h0 (by simpa using h1)
    exact ⟨by simpa using hpc, hw, by simp⟩
  | false =>
    obtain ⟨u, hu, rfl⟩ := roundRobin_cycle s t hr hp h
    have hs : u.status = s.status ∧ u.pipelined = s.pipelined ∧
        (s.fetchDone = false → u.fetchDone = true →
          u.pc = s.fetchAddress ∧ s.busWord s.fetchAddress = some s.endWord ∧ u.ifid.valid = false) ∧
        (s.fetchDone = true → u.fetchDone = true) := by
      cases hu with
      | fetch _ s1 f hf =>
        obtain ⟨hs, hp1, hend, hstop⟩ := FetchAnswer.endOfFetch s s1 f hf
        refine ⟨hs, hp1, fun h0 h1 => ?_, hstop⟩
        obtain ⟨hpc, hw, rfl⟩ := hend h0 h1
        exact ⟨by simpa using hpc, hw, by simp⟩
      | decode | execute | memory | writeBack =>
        refine ⟨by simp, by simp, fun h0 h1 => ?_, fun h0 => by simpa using h0⟩
        simp [h0] at h1
    obtain ⟨hs, hp1, hend, hstop⟩ := hs
    obtain ⟨h1, h2⟩ := status_endCycle { u with cursor := u.cursor + 1 } s hr hs hp1
    rw [hp] at h1
    exact ⟨by simpa using h1, h2, by simpa using hend, by simpa using hstop⟩

end Sys2Proof.Machine

/-! PROOFS. The invariant of the machine is kept by every clock cycle and every step (10_state.md R31 to R34, 46_pipeline.md R311 to R346). -/

namespace Sys2Proof.Machine

/-! ### What the stages put into the latches is consistent -/

theorem resolve_ne_endOfTest (e w : Word) (m : Mnemonic) (hw : w ≠ e) (h : resolve e w = .ok m) : m ≠ .endOfTest :=
  (row_of_resolve e w m hw h).1

theorem idExConsistent_decodeResolved (s : State) (l : IfId) (m : Mnemonic) (hm : m ≠ .endOfTest) :
    IdExConsistent (decodeResolved s l m).latch where
  instr := hm
  bundle := rfl
  link := rfl
  rd := by rintro rfl; rfl

/-- `l.jal` passes its link on (R327). -/
theorem executeResult_jal (l : IdEx) (h : l.instr = .jal) : executeResult l = .ok l.link := by
  simp [executeResult, h, skipsAlu]

/-- An instruction that selects no operand has the result 0 (R324, R325). -/
theorem executeResult_unselected (l : IdEx) (hb : l.ctl = controlBundle l.instr) (hj : l.instr ≠ .jal)
    (hs : selAOf l.instr = .unselected) : executeResult l = .ok 0#32 := by
  have hmux : executeMuxed l = .ok 0#32 := by
    simp only [executeMuxed, hb, controlBundle, hs]
  unfold executeResult
  split
  · rfl
  · split
    · next h => exact absurd h hj
    · next h => rw [h] at hs; cases hs
    · next h => rw [h] at hs; cases hs
    · next h => rw [h] at hs; cases hs
    · next h => rw [h] at hs; cases hs
    · next h => rw [h] at hs; cases hs
    · exact hmux

theorem exMConsistent_executed (l : IdEx) (v : Word) (h : IdExConsistent l) (hv : executeResult l = .ok v) :
    ExMConsistent (l.executed v) where
  instr := h.instr
  bundle := h.bundle
  link := h.link
  rd := h.rd
  jalOut := fun hj => Except.ok.inj (hv.symm.trans (executeResult_jal l hj))
  noOperand := fun hj hs => Except.ok.inj (hv.symm.trans (executeResult_unselected l h.bundle hj hs))

theorem mWbConsistent_accessed (s : State) (l : ExM) (m : Memory) (v : Word) (h : ExMConsistent l)
    (ha : memoryAccess s l = .ok (m, v)) : MWbConsistent (l.accessed v) where
  instr := h.instr
  bundle := h.bundle
  link := h.link
  rd := h.rd
  jalOut := h.jalOut
  noOperand := h.noOperand
  memOut := fun hm => (memoryAccess_ok s l m v ha).2.2 (by rw [h.bundle]; exact hm)

theorem DecodeAnswer.consistent {s : State} {d : Option DecodeOutput} (hd : DecodeAnswer s d) (hi : Inv s) :
    ∀ l, d.map (·.latch) = some l → IdExConsistent l := by
  cases hd with
  | bubble => simp
  | resolved l m hl hm =>
    rintro _ ⟨⟩
    exact idExConsistent_decodeResolved s l m (resolve_ne_endOfTest _ _ m (hi.ifid l hl) hm)

theorem ExecuteAnswer.consistent {s : State} {e : Option ExM} (he : ExecuteAnswer s e) (hi : Inv s) :
    ∀ l, e = some l → ExMConsistent l := by
  cases he with
  | bubble => simp
  | result l v hl hv =>
    rintro _ ⟨⟩
    exact exMConsistent_executed l v (hi.idex l hl) hv

theorem MemoryAnswer.consistent {s : State} {m : Memory × Option MWb} (hm : MemoryAnswer s m) (hi : Inv s) :
    ∀ l, m.2 = some l → MWbConsistent l := by
  cases hm with
  | bubble => simp
  | access l m v hl ha =>
    rintro _ ⟨⟩
    exact mWbConsistent_accessed s l m v (hi.exm l hl) ha

theorem MemoryAnswer.wf {s : State} {m : Memory × Option MWb} (hm : MemoryAnswer s m) (hw : s.mem.wf = true) :
    m.1.wf = true := by
  cases hm with
  | bubble => exact hw
  | access l m v hl ha => exact (memoryAccess_ok s l m v ha).1 hw

/-! ### The parameters -/

/-- No cycle changes a parameter (00_scope.md R8). -/
theorem cycle_parameters (s t : State) (h : cycle s = .next t) :
    t.pipelined = s.pipelined ∧ t.endWord = s.endWord ∧ t.bus = s.bus := by
  rcases cycle_next_cases s t h with hr | ⟨_, rfl⟩
  · cases hp : s.pipelined with
    | true =>
      obtain ⟨s1, f, d, e, m, hf, _, _, _, rfl⟩ := pipelined_cycle s t hr hp h
      cases hf <;> simp [hp]
    | false =>
      obtain ⟨u, hu, rfl⟩ := roundRobin_cycle s t hr hp h
      cases hu with
      | fetch _ s1 f hf => cases hf <;> simp [hp]
      | _ => simp [hp]
  · exact ⟨rfl, rfl, rfl⟩

/-! ### A cycle of the pipelined core -/

/-- A bubble for a bubble and an instruction for an instruction: the valid bits move one latch on (R341). -/
theorem pipelined_valid_bits (s t : State) (hr : s.status = .running) (hp : s.pipelined = true) (h : cycle s = .next t) :
    t.idex.valid = s.ifid.valid ∧ t.exm.valid = s.idex.valid ∧ t.mwb.valid = s.exm.valid := by
  obtain ⟨hidex, hexm, hmwb, _⟩ := pipelinedLatchesAdvance s t hr hp h
  have hidex := congrArg Option.isSome hidex
  have hexm := congrArg Option.isSome hexm
  have hmwb := congrArg Option.isSome hmwb
  simp only [Option.isSome_map, out_isSome] at hidex hexm hmwb
  exact ⟨hidex, hexm, hmwb⟩

theorem inv_pipelined_cycle (s t : State) (hi : Inv s) (hr : s.status = .running) (hp : s.pipelined = true)
    (h : cycle s = .next t) : Inv t := by
  obtain ⟨hpt, het, _⟩ := cycle_parameters s t h
  obtain ⟨hended, _, _, _⟩ := termination s t hr h
  obtain ⟨hidex, hexm, hmwb⟩ := pipelined_valid_bits s t hr hp h
  obtain ⟨_, _, _, hissued, hretired, _⟩ := pipelinedLatchesAdvance s t hr hp h
  have hfetched := fetchReadsMemoryBeforeTheStore s t
  have hnp : t.pipelined ≠ false := by rw [hpt, hp]; decide
  have hcounts := hi.pipelinedCounts hp
  refine
    { endedFetched := fun he => (hended.mp he).1
      endedDrained := fun he _ => (hended.mp he).2 hp
      pcFollows := fun _ l hl => ?pcFollows
      ifid := fun l hl => het ▸ (hfetched l hr hp h hl).2.2.1
      pipelinedCounts := fun _ => ?pipelinedCounts
      resident := fun hn => absurd hn hnp
      runningCounts := fun hn => absurd hn hnp
      endedCounts := fun hn => absurd hn hnp
      memory := ?memory
      idex := ?idex
      exm := ?exm
      mwb := ?mwb
      fetchStopped := ?fetchStopped }
  case pcFollows =>
    obtain ⟨hpc, _, _, hpc4⟩ := hfetched l hr hp h hl
    rw [hpc4, hpc]
  case pipelinedCounts =>
    simp only [State.inFlight, hidex, hexm, hmwb] at hcounts ⊢
    omega
  all_goals
    obtain ⟨s1, f, d, e, m, hf, hd, he, hm, rfl⟩ := pipelined_cycle s t hr hp h
  case memory => simpa using hm.wf hi.memory
  case idex => simpa using hd.consistent hi
  case exm => simpa using he.consistent hi
  case mwb => simpa using hm.consistent hi
  case fetchStopped =>
    intro hd
    refine Or.inl ⟨hpt.trans hp, ?_⟩
    cases hf with
    | stopped | ends => simp
    | word hd' => simp [hd'] at hd

/-! ### A cycle of the non-pipelined core -/

theorem inv_roundRobin_cycle (s t : State) (hi : Inv s) (hr : s.status = .running) (hp : s.pipelined = false)
    (h : cycle s = .next t) : Inv t := by
  obtain ⟨hpt, het, _⟩ := cycle_parameters s t h
  obtain ⟨hended, _, _, _⟩ := termination s t hr h
  have hfd : s.fetchDone = false := by
    rcases Bool.eq_false_or_eq_true s.fetchDone with hd | hd
    · rcases hi.fetchStopped hd with ⟨h1, _⟩ | ⟨_, h2⟩
      · rw [hp] at h1; cases h1
      · rw [hr] at h2; cases h2
    · exact hd
  have hresident := hi.resident hp hr
  obtain ⟨hissued, hcycles⟩ := hi.runningCounts hp hr
  have hpf : t.pipelined ≠ true := by rw [hpt, hp]; decide
  have hnd : s.pipelined = true → t.drained = true := fun h => by rw [hp] at h; cases h
  refine
    { endedFetched := fun he => (hended.mp he).1
      endedDrained := fun _ h => absurd h hpf
      pcFollows := fun h => absurd h hpf
      pipelinedCounts := fun h => absurd h hpf
      fetchStopped := fun hd => Or.inr ⟨hpt.trans hp, hended.mpr ⟨hd, hnd⟩⟩
      memory := ?memory
      ifid := ?ifid
      idex := ?idex
      exm := ?exm
      mwb := ?mwb
      resident := ?resident
      runningCounts := ?runningCounts
      endedCounts := ?endedCounts }
  all_goals
    obtain ⟨u, hu, rfl⟩ := roundRobin_cycle s t hr hp h
    clear h hended hpt het hpf hnd
  case memory =>
    cases hu with
    | fetch _ s1 f hf => cases hf <;> simp [hi.memory]
    | memory _ m hm => simpa using hm.wf hi.memory
    | _ => simpa using hi.memory
  case ifid =>
    cases hu with
    | fetch _ s1 f hf =>
      cases hf with
      | word _ w _ he => simpa using he
      | stopped | ends => simp
    | _ => simpa using hi.ifid
  case idex =>
    cases hu with
    | fetch _ s1 f hf => cases hf <;> simpa using hi.idex
    | decode _ d hd => simpa using hd.consistent hi
    | _ => simpa using hi.idex
  case exm =>
    cases hu with
    | fetch _ s1 f hf => cases hf <;> simpa using hi.exm
    | execute _ e he => simpa using he.consistent hi
    | _ => simpa using hi.exm
  case mwb =>
    cases hu with
    | fetch _ s1 f hf => cases hf <;> simpa using hi.mwb
    | memory _ m hm => simpa using hm.consistent hi
    | _ => simpa using hi.mwb
  case resident =>
    intro _ hrun
    cases hu with
    | fetch hc s1 f hf =>
      cases hf with
      | stopped hd => rw [hfd] at hd; cases hd
      | ends => simp [hp] at hrun
      | word => simp [State.residentLatchFull, hc]
    | decode hc d hd =>
      cases hd with
      | bubble hl => simp [State.residentLatchFull, hc, (out_eq_none_iff _).mp hl] at hresident
      | resolved => simp [State.residentLatchFull, hc]
    | execute hc e he =>
      cases he with
      | bubble hl => simp [State.residentLatchFull, hc, (out_eq_none_iff _).mp hl] at hresident
      | result => simp [State.residentLatchFull, hc]
    | memory hc m hm =>
      cases hm with
      | bubble hl => simp [State.residentLatchFull, hc, (out_eq_none_iff _).mp hl] at hresident
      | access => simp [State.residentLatchFull, hc]
    | writeBack hc => simp [State.residentLatchFull, hc]
  case runningCounts =>
    intro _ hrun
    cases hu with
    | fetch hc s1 f hf =>
      simp only [State.issuedInRound, hc] at hissued hcycles
      cases hf with
      | stopped hd => rw [hfd] at hd; cases hd
      | ends => simp [hp] at hrun
      | word => simp [State.issuedInRound, hc, hissued, hcycles]
    | decode hc d hd =>
      simp only [State.issuedInRound, hc] at hissued hcycles
      cases hd with
      | bubble hl => simp [State.residentLatchFull, hc, (out_eq_none_iff _).mp hl] at hresident
      | resolved => simp [State.issuedInRound, hc, hissued, hcycles]
    | execute hc | memory hc =>
      simp only [State.issuedInRound, hc] at hissued hcycles
      simp [State.issuedInRound, hc, hissued, hcycles]
    | writeBack hc =>
      simp only [State.issuedInRound, State.residentLatchFull, hc] at hissued hcycles hresident
      simp [State.issuedInRound, hc, hissued, hcycles, hresident]
      omega
  case endedCounts =>
    intro _ hrun
    cases hu with
    | fetch hc s1 f hf =>
      simp only [State.issuedInRound, hc] at hissued hcycles
      cases hf with
      | stopped hd => rw [hfd] at hd; cases hd
      | ends => simp [hissued, hcycles]
      | word => simp [hr, hfd] at hrun
    | _ => simp [hr, hfd] at hrun

/-- Settles O44: in either mode each stage puts consistent fields into its latch, and the counters follow the valid bits. -/
theorem invariantKeptByCycle : Obligations.InvariantKeptByCycle := by
  intro s t hi h
  rcases cycle_next_cases s t h with hr | ⟨_, rfl⟩
  · cases hp : s.pipelined with
    | true => exact inv_pipelined_cycle s t hi hr hp h
    | false => exact inv_roundRobin_cycle s t hi hr hp h
  · exact hi

/-! ### A step -/

theorem exec_mem_wf (i : Instr) (s t : State) (h : exec i s = .next t) (hw : s.mem.wf = true) : t.mem.wf = true := by
  cases exec_effect i s t h with
  | memory _ m hm => exact hm hw
  | _ => simpa using hw

/-- Every instruction but `END` completes (R345). -/
theorem exec_completed (i : Instr) (s t : State) (h : exec i s = .next t) (hi : i ≠ .endOfTest) : Completed s t := by
  cases exec_effect i s t h with
  | ends he => exact absurd he hi
  | _ => exact ⟨by simp, by simp, by simp⟩

/-- Between two instructions of the non-pipelined core the invariant says nothing of `PC` and `DS`. -/
theorem inv_applyDelaySlot (s : State) (hi : Inv s) (hp : s.pipelined = false) : Inv s.applyDelaySlot := by
  rw [applyDelaySlot_eq]
  exact { hi with pcFollows := fun h => by rw [hp] at h; cases h }

/-- An instruction between two others keeps the invariant: one more is issued and retired in five cycles, or the run ends in one. -/
theorem inv_of_exec (i : Instr) (s t : State) (hi : Inv s) (hr : s.status = .running) (hp : s.pipelined = false)
    (hc : s.cursor = 0) (hf : s.fetchDone = false) (h : exec i s = .next t) : Inv t := by
  obtain ⟨hissued, hcycles⟩ := hi.runningCounts hp hr
  simp only [State.issuedInRound, hc] at hissued hcycles
  obtain ⟨_, _, _, hstatus, hpt, het, _⟩ := onlyTheNamedInstructionsWrite i s t h
  obtain ⟨h1, h2, h3, h4, h5, hcyc⟩ := execLeavesLatchesAndCountsCycles i s t h
  have hcounts : t.nIssued = t.nRetired ∧
      ((t.status = .running ∧ t.fetchDone = false ∧ t.nCycles = 5 * t.nRetired) ∨
       (t.status = .ended ∧ t.fetchDone = true ∧ t.nCycles = 5 * t.nRetired + 1)) := by
    by_cases he : i = .endOfTest
    · subst he
      cases h
      simpa using ⟨hissued, hcycles⟩
    · obtain ⟨hst, hft⟩ := hstatus he
      obtain ⟨_, hit, hrt⟩ := exec_completed i s t h he
      rw [if_neg he, hcycles] at hcyc
      rw [hit, hrt, hissued, hst, hft, hcyc]
      exact ⟨rfl, Or.inl ⟨hr, hf, by simp; ring⟩⟩
  obtain ⟨hit, hcase⟩ := hcounts
  have hnp : t.pipelined ≠ true := by rw [hpt, hp]; decide
  exact
    { memory := exec_mem_wf i s t h hi.memory
      ifid := by rw [h1, het]; exact hi.ifid
      idex := by rw [h2]; exact hi.idex
      exm := by rw [h3]; exact hi.exm
      mwb := by rw [h4]; exact hi.mwb
      endedFetched := by rcases hcase with ⟨hs, _⟩ | ⟨_, hd, _⟩ <;> simp [*]
      fetchStopped := by rcases hcase with ⟨_, hd, _⟩ | ⟨hs, _⟩ <;> simp [*]
      endedDrained := fun _ hn => absurd hn hnp
      pcFollows := fun hn => absurd hn hnp
      pipelinedCounts := fun hn => absurd hn hnp
      resident := by simp [State.residentLatchFull, h5, hc]
      runningCounts := by 
        intro _ hs
        rcases hcase with ⟨_, _, hn⟩ | ⟨hs', _⟩
        · rw [h5, hc]
          exact ⟨by simpa [State.issuedInRound, h5, hc] using hit, hn⟩
        · rw [hs] at hs'; cases hs'
      endedCounts := by 
        intro _ hs
        rcases hcase with ⟨hs', _⟩ | ⟨_, _, hn⟩
        · rw [hs] at hs'; cases hs'
        · exact ⟨hit, hn⟩ }

/-- Settles O43: between two instructions a step is an instruction, and otherwise a cycle. -/
theorem invariantKeptByStep : Obligations.InvariantKeptByStep := by
  intro s t hi h
  cases hr : s.status with
  | running =>
    cases hb : s.atInstructionBoundary with
    | false => exact invariantKeptByCycle s t hi (step_cycle s hr hb ▸ h)
    | true =>
      obtain ⟨hp, hc, hf⟩ := (atInstructionBoundary_iff s).mp hb
      rw [step_boundary s hr hb] at h
      rcases instructionStep_cases s with ⟨r, _, h'⟩ | ⟨w, r, _, _, h'⟩ | ⟨w, i, _, _, h'⟩ <;> rw [h'] at h
      · cases h
      · cases h
      · exact inv_of_exec i _ t (inv_applyDelaySlot s hi hp) (by simpa using hr) (by simpa using hp) (by simpa using hc)
          (by simpa using hf) h
  | ended =>
    cases ((stoppedCoreStays.1 s hr).1).symm.trans h
    exact hi
  | faulted r => cases ((stoppedCoreStays.2 s r hr).1).symm.trans h

/-! ### The internal assertion -/

/-- The fetch stops the core only with its own failure (R316). -/
theorem fetchWord_error (s : State) (f : Fault) (h : s.fetchWord = .error f) : f = .instructionFetchFailure s.pc := by
  rcases fetchWord_cases s with ⟨_, _, _, _, _, h'⟩ | ⟨_, h'⟩
  · cases h'.symm.trans h
  · cases h'.symm.trans h
    rfl

/-- A valid size leaves the memory stage its one failure, the refusal of the bus (R331, R364). -/
theorem memoryAccess_error (s : State) (l : ExM) (f : Fault) (hb : l.ctl = controlBundle l.instr)
    (h : memoryAccess s l = .error f) : f = .dataAccessFailure l.aluOut := by
  have hn : validSize l.ctl.size = true := by rw [hb]; exact validSize_sizeOf l.instr
  rcases memoryAccess_cases s l hn with ⟨_, h'⟩ | ⟨_, _, _, h'⟩ | ⟨_, _, h'⟩ | ⟨_, _, _, h'⟩ | ⟨_, _, h'⟩
  all_goals cases h'.symm.trans h
  all_goals rfl

theorem fetchPropagate_error (s : State) (f : Fault) (h : fetchPropagate s = .error f) :
    f = .instructionFetchFailure s.fetchAddress := by
  rcases fetchPropagate_cases s with ⟨_, h'⟩ | ⟨_, r, hr, h'⟩ | ⟨_, _, h'⟩ | ⟨_, _, _, _, h'⟩
  all_goals cases h'.symm.trans h
  simpa using fetchWord_error _ _ hr

theorem decodePropagate_error (s : State) (f : Fault) (h : decodePropagate s = .error f) :
    ∃ pc w, f = .illegalInstruction pc w := by
  rcases decodePropagate_cases s with ⟨_, h'⟩ | ⟨_, _, _, _, h'⟩ | ⟨l, _, _, _, h'⟩
  all_goals cases h'.symm.trans h
  exact ⟨l.pc, l.iw, rfl⟩

/-- With consistent latches execute never fails (R149). -/
theorem executePropagate_ok (s : State) (hi : Inv s) : ∃ e, executePropagate s = .ok e := by
  unfold executePropagate
  cases hl : s.idex.out with
  | none => exact ⟨_, rfl⟩
  | some l =>
    obtain ⟨v, hv⟩ := executeResult_ok l (hi.idex l hl).bundle
    simp only [hv]
    exact ⟨_, rfl⟩

theorem memoryStage_error (s : State) (f : Fault) (hi : Inv s) (h : memoryStage s = .error f) :
    ∃ a, f = .dataAccessFailure a := by
  unfold memoryStage at h
  split at h
  · cases h
  · next l hl =>
    split at h
    · cases h
    · next r ha =>
      cases h
      exact ⟨_, memoryAccess_error s l f (hi.exm l hl).bundle ha⟩

/-- The faults a running core with the invariant can meet in a cycle. -/
inductive CycleFault : Fault → Prop
  | fetch (a : Word) : CycleFault (.instructionFetchFailure a)
  | decode (pc w : Word) : CycleFault (.illegalInstruction pc w)
  | memory (a : Word) : CycleFault (.dataAccessFailure a)

theorem cycleFault_of_stage (s : State) (f : Fault) (hi : Inv s)
    (h : fetchPropagate s = .error f ∨ decodePropagate s = .error f ∨ executePropagate s = .error f ∨ memoryStage s = .error f) :
    CycleFault f := by
  rcases h with h | h | h | h
  · rw [fetchPropagate_error s f h]
    exact .fetch _
  · obtain ⟨pc, w, rfl⟩ := decodePropagate_error s f h
    exact .decode pc w
  · obtain ⟨e, he⟩ := executePropagate_ok s hi
    cases he.symm.trans h
  · obtain ⟨a, rfl⟩ := memoryStage_error s f hi h
    exact .memory a

theorem pipelinedStages_error (s : State) (f : Fault) (h : pipelinedStages s = .error f) :
    fetchPropagate s = .error f ∨ decodePropagate s = .error f ∨ executePropagate s = .error f ∨ memoryStage s = .error f := by
  unfold pipelinedStages at h
  split at h
  · next hf => cases h; exact .inl hf
  · split at h
    · next hd => cases h; exact .inr (.inl hd)
    · split at h
      · next he => cases h; exact .inr (.inr (.inl he))
      · split at h
        · next hm => cases h; exact .inr (.inr (.inr hm))
        · cases h

theorem roundRobinStage_error (s : State) (f : Fault) (h : roundRobinStage s = .error f) :
    fetchPropagate s = .error f ∨ decodePropagate s = .error f ∨ executePropagate s = .error f ∨ memoryStage s = .error f := by
  unfold roundRobinStage activeStage at h
  split at h
  · cases h
  · next r hr =>
    cases h
    split at hr
    · split at hr
      · cases hr
      · next he => cases hr; exact .inl he
    · split at hr
      · cases hr
      · next he => cases hr; exact .inr (.inl he)
    · split at hr
      · cases hr
      · next he => cases hr; exact .inr (.inr (.inl he))
    · split at hr
      · cases hr
      · next he => cases hr; exact .inr (.inr (.inr he))
    · cases hr

theorem cycle_fault (s : State) (f : Fault) (hi : Inv s) (hr : s.status = .running) (h : cycle s = .fault f) : CycleFault f := by
  simp only [cycle, hr, runningCycle] at h
  split at h
  · cases h
  · next r he =>
    cases h
    refine cycleFault_of_stage s f hi ?_
    split at he
    · exact pipelinedStages_error s f he
    · exact roundRobinStage_error s f he

theorem load_fault (s : State) (d a : RegIdx) (i : BitVec 16) (n : Nat) (sx : Bool) (f : Fault) (hn : validSize n = true)
    (h : s.load d a i n sx = .fault f) : CycleFault f := by
  rcases load_cases s d a i n sx hn with ⟨_, _, h'⟩ | ⟨_, h'⟩
  · cases h'.symm.trans h
  · cases h'.symm.trans h
    exact .memory _

theorem store_fault (s : State) (i : BitVec 16) (a b : RegIdx) (n : Nat) (f : Fault) (hn : validSize n = true)
    (h : s.store i a b n = .fault f) : CycleFault f := by
  rcases store_cases s i a b n hn with ⟨_, _, h'⟩ | ⟨_, h'⟩
  · cases h'.symm.trans h
  · cases h'.symm.trans h
    exact .memory _

/-- The one fault of an instruction is a refused data access. -/
theorem exec_fault (i : Instr) (s : State) (f : Fault) (h : exec i s = .fault f) : CycleFault f := by
  cases i with
  | lwa | lwz | lws | lbz | lbs | lhz | lhs | lf | ld => exact load_fault s _ _ _ _ _ f rfl h
  | swa | sw | sb | sh | sd => exact store_fault s _ _ _ _ f rfl h
  | _ => cases h

/-- Settles O45: no fault of a running core with the invariant is the internal assertion. -/
theorem invalidConfigurationIsUnreachable : Obligations.InvalidConfigurationIsUnreachable := by
  intro s what hi hr
  have hcycle : cycle s ≠ .fault (.invalidConfiguration what) := fun h => nomatch cycle_fault s _ hi hr h
  refine ⟨fun h => ?_, hcycle⟩
  cases hb : s.atInstructionBoundary with
  | false => exact hcycle (step_cycle s hr hb ▸ h)
  | true =>
    rw [step_boundary s hr hb] at h
    rcases instructionStep_cases s with ⟨r, hw, h'⟩ | ⟨w, r, _, _, h'⟩ | ⟨w, i, _, _, h'⟩ <;> rw [h'] at h
    · cases h
      cases fetchWord_error _ _ hw
    · cases h
    · exact nomatch exec_fault i _ _ h

end Sys2Proof.Machine

/-! PROOFS. The meaning of an instruction is what the stages compute one after another: the tie between the instruction level and the
cycle level that every refinement rests on (46_pipeline.md R319 to R336, R345). -/

namespace Sys2Proof.Machine

/-- The shared cells after decode's clockPulse (R322). -/
def State.decoded (s : State) (o : DecodeOutput) : State :=
  { s with
    flag := o.newFlag.getD s.flag
    npc := o.target.getD s.npc
    ds := if o.target.isSome then (if s.pipelined then 2 else 1) else s.ds }

/-- The registers after write-back's clockPulse (R334 to R336). -/
def State.writtenBack (s : State) (l : MWb) : State :=
  if writeEnabled l then s.writeReg (writeBackIndex l) (writeBackValue l) else s

/-- What decode makes of the word `w` whose address is `PC` (R319 to R321). -/
def State.decodedWord (s : State) (m : Mnemonic) (w : Word) : DecodeOutput := decodeResolved s { pc := s.pc, iw := w } m

/-- What a completed instruction leaves: decode's cells, then memory, then the register, `PC` and the counts. -/
def State.staged (s : State) (o : DecodeOutput) (mem : Memory) (l : MWb) : State :=
  (({ s.decoded o with mem := mem } : State).writtenBack l).retire

/-- An instruction taken through decode, execute, memory and write-back with nothing else in the pipeline: `w` is its word, and `PC` its
own address. -/
def stagedMeaning (m : Mnemonic) (w : Word) (s : State) : Host.Outcome State Fault Refusal :=
  let o := s.decodedWord m w
  match executeResult o.latch with
  | .error r => raise r
  | .ok v =>
    match memoryAccess s (o.latch.executed v) with
    | .error r => raise r
    | .ok (mem, x) => .next (s.staged o mem ((o.latch.executed v).accessed x))

theorem stagedMeaning_ok (m : Mnemonic) (w : Word) (s : State) (v x : Word) (mem : Memory)
    (hv : executeResult (s.decodedWord m w).latch = .ok v)
    (ha : memoryAccess s ((s.decodedWord m w).latch.executed v) = .ok (mem, x)) :
    stagedMeaning m w s =
      .next (s.staged (s.decodedWord m w) mem (((s.decodedWord m w).latch.executed v).accessed x)) := by
  simp only [stagedMeaning, hv, ha]

theorem stagedMeaning_fault (m : Mnemonic) (w : Word) (s : State) (v : Word) (r : Fault)
    (hv : executeResult (s.decodedWord m w).latch = .ok v)
    (ha : memoryAccess s ((s.decodedWord m w).latch.executed v) = .error r) :
    stagedMeaning m w s = .fault r := by
  simp only [stagedMeaning, hv, ha, raise]

/-- A load as the memory stage makes it: the effective address is the ALU's result, the request has the size of the bundle. -/
theorem load_eq_stagedMeaning (m : Mnemonic) (w : Word) (s : State)
    (hm : m ∈ [.lwa, .lwz, .lws, .lbz, .lbs, .lhz, .lhs, .lf, .ld]) :
    s.load (fieldD w) (fieldA w) (imm16 w) (sizeOf m) (sextOf m) = stagedMeaning m w s := by
  have hv : executeResult (s.decodedWord m w).latch = .ok (s.effectiveAddress (fieldA w) (imm16 w)) := by
    simp only [List.mem_cons, List.not_mem_nil, or_false] at hm
    rcases hm with rfl | rfl | rfl | rfl | rfl | rfl | rfl | rfl | rfl <;> rfl
  have hmode : memModeOf m = .load := (memModeOf_eq_load_iff m).mpr (by simp at hm ⊢; tauto)
  unfold State.load
  cases hr : s.memRead (s.effectiveAddress (fieldA w) (imm16 w)) (sizeOf m) with
  | error r =>
    refine (stagedMeaning_fault m w s _ r hv ?_).symm
    simp [memoryAccess, State.decodedWord, decodeResolved, hmode, hr]
  | ok v =>
    rw [stagedMeaning_ok m w s _ (extendLoaded (sizeOf m) (sextOf m) v) s.mem hv
      (by simp [memoryAccess, State.decodedWord, decodeResolved, hmode, hr])]
    dsimp only
    generalize extendLoaded (sizeOf m) (sextOf m) v = x
    simp only [List.mem_cons, List.not_mem_nil, or_false] at hm
    rcases hm with rfl | rfl | rfl | rfl | rfl | rfl | rfl | rfl | rfl <;> rfl

/-- A store likewise. -/
theorem store_eq_stagedMeaning (m : Mnemonic) (w : Word) (s : State) (hm : m ∈ [.swa, .sw, .sb, .sh, .sd]) :
    s.store (storeOffset w) (fieldA w) (fieldB w) (sizeOf m) = stagedMeaning m w s := by
  have hv : executeResult (s.decodedWord m w).latch =
      .ok (s.effectiveAddress (fieldA w) (storeOffset w)) := by
    simp only [List.mem_cons, List.not_mem_nil, or_false] at hm
    rcases hm with rfl | rfl | rfl | rfl | rfl <;> rfl
  have hmode : memModeOf m = .store := (memModeOf_eq_store_iff m).mpr (by simp at hm ⊢; tauto)
  have hjr : m ≠ .jr := by rintro rfl; cases hmode
  unfold State.store
  cases hr : s.memWrite (s.effectiveAddress (fieldA w) (storeOffset w)) (sizeOf m) ((s.readReg (fieldB w)).setWidth 64) with
  | error r =>
    refine (stagedMeaning_fault m w s _ r hv ?_).symm
    simp [memoryAccess, State.decodedWord, decodeResolved, secondReadIndex, hmode, hjr, hr]
  | ok mem =>
    rw [stagedMeaning_ok m w s _ 0#32 mem hv
      (by simp [memoryAccess, State.decodedWord, decodeResolved, secondReadIndex, hmode, hjr, hr])]
    simp only [List.mem_cons, List.not_mem_nil, or_false] at hm
    rcases hm with rfl | rfl | rfl | rfl | rfl <;> rfl

/-- The instruction level and the stages give every instruction the same meaning. -/
theorem exec_eq_stagedMeaning (m : Mnemonic) (w : Word) (s : State) (hm : m ≠ .endOfTest) :
    exec (operandsOf m w) s = stagedMeaning m w s := by
  have hload := load_eq_stagedMeaning m w s
  have hstore := store_eq_stagedMeaning m w s
  cases m with
  | endOfTest => exact absurd rfl hm
  | lwa | lwz | lws | lbz | lbs | lhz | lhs | lf | ld => exact hload (by simp)
  | swa | sw | sb | sh | sd => exact hstore (by simp)
  | bf | bnf =>
    simp only [operandsOf, exec_bf, exec_bnf, stagedMeaning, State.decodedWord, decodeResolved, transferTaken]
    cases s.flag <;> rfl
  | _ => rfl

/-- What an instruction that answers a next state leaves, stage by stage. -/
theorem exec_next_stages (m : Mnemonic) (w : Word) (s t : State) (hm : m ≠ .endOfTest) (h : exec (operandsOf m w) s = .next t) :
    ∃ v mem x, executeResult (s.decodedWord m w).latch = .ok v ∧
      memoryAccess s ((s.decodedWord m w).latch.executed v) = .ok (mem, x) ∧
      t = s.staged (s.decodedWord m w) mem (((s.decodedWord m w).latch.executed v).accessed x) := by
  obtain ⟨v, hv⟩ := executeResult_ok (s.decodedWord m w).latch rfl
  rw [exec_eq_stagedMeaning m w s hm] at h
  cases ha : memoryAccess s ((s.decodedWord m w).latch.executed v) with
  | error r => cases (stagedMeaning_fault m w s v r hv ha).symm.trans h
  | ok o =>
    obtain ⟨mem, x⟩ := o
    refine ⟨v, mem, x, hv, ha, ?_⟩
    rw [stagedMeaning_ok m w s v x mem hv ha] at h
    exact (Host.Outcome.next.inj h).symm

/-- The one fault of an instruction is that of its memory stage. -/
theorem exec_fault_stages (m : Mnemonic) (w : Word) (s : State) (r : Fault) (hm : m ≠ .endOfTest)
    (h : exec (operandsOf m w) s = .fault r) :
    ∃ v, executeResult (s.decodedWord m w).latch = .ok v ∧
      memoryAccess s ((s.decodedWord m w).latch.executed v) = .error r := by
  obtain ⟨v, hv⟩ := executeResult_ok (s.decodedWord m w).latch rfl
  refine ⟨v, hv, ?_⟩
  rw [exec_eq_stagedMeaning m w s hm] at h
  cases ha : memoryAccess s ((s.decodedWord m w).latch.executed v) with
  | error e =>
    cases (stagedMeaning_fault m w s v e hv ha).symm.trans h
    rfl
  | ok o =>
    obtain ⟨mem, x⟩ := o
    cases (stagedMeaning_ok m w s v x mem hv ha).symm.trans h

end Sys2Proof.Machine

/-! PROOFS. Five clock cycles of the non-pipelined core are one instruction step, so whole runs agree (46_pipeline.md R342 to R346). -/

namespace Sys2Proof.Machine

/-! ### One clock cycle of the non-pipelined core -/

theorem endCycle_of_fetching (s : State) (h : s.fetchDone = false) : s.endCycle = { s with nCycles := s.nCycles + 1 } := by
  simp [State.endCycle, State.checkEnd, h]

/-- The active stage, the cursor and the count of cycles (R340, R342). -/
theorem cycle_of_activeStage (s t : State) (hr : s.status = .running) (hp : s.pipelined = false) (h : activeStage s = .ok t) :
    cycle s = .next (State.endCycle { t with cursor := t.cursor + 1 }) := by
  simp [cycle, hr, runningCycle, hp, roundRobinStage, h]

theorem cycle_of_activeStage_error (s : State) (r : Fault) (hr : s.status = .running) (hp : s.pipelined = false)
    (h : activeStage s = .error r) : cycle s = .fault r := by
  simp [cycle, hr, runningCycle, hp, roundRobinStage, h, raise]

theorem cycles_succ (k : Nat) (s t : State) (h : cycle s = .next t) : cycles (k + 1) s = cycles k t := by
  simp only [cycles, h]

theorem cycles_succ_fault (k : Nat) (s : State) (r : Fault) (h : cycle s = .fault r) : cycles (k + 1) s = .fault r := by
  simp only [cycles, h]

/-- Decode's clockPulse on an instruction: the shared cells and the latch (R322). -/
theorem decodeClock_some (s : State) (o : DecodeOutput) :
    decodeClock s (some o) = { s.decoded o with idex := Latch.commit IdEx.zero (some o.latch), nIssued := s.nIssued + 1 } := by
  obtain ⟨l, f, t⟩ := o
  cases f <;> cases t <;> rfl

/-- Write-back's clockPulse on an instruction: the register and the count (R336). -/
theorem writeBackClock_some (s : State) (l : MWb) :
    writeBackClock s (some l) = { s.writtenBack l with nRetired := s.nRetired + 1 } := by
  have hn : (s.writtenBack l).nRetired = s.nRetired := by
    unfold State.writtenBack
    split <;> simp
  rw [← hn]
  rfl

/-! ### The states between the five cycles of one instruction -/

/-- After the cycle of fetch, on the state the delay-slot protocol leaves. -/
def State.afterFetch (s : State) (w : Word) : State :=
  { s with
    pc := s.pc + 4#32
    ifid := Latch.commit IfId.zero (some { pc := s.pc, iw := w })
    cursor := 1
    nCycles := s.nCycles + 1 }

def State.afterDecode (s : State) (o : DecodeOutput) : State :=
  { s.decoded o with
    idex := Latch.commit IdEx.zero (some o.latch)
    nIssued := s.nIssued + 1
    cursor := 2
    nCycles := s.nCycles + 1 }

def State.afterExecute (s : State) (l : ExM) : State :=
  { s with exm := Latch.commit ExM.zero (some l), cursor := 3, nCycles := s.nCycles + 1 }

def State.afterMemory (s : State) (mem : Memory) (l : MWb) : State :=
  { s with mem := mem, mwb := Latch.commit MWb.zero (some l), cursor := 4, nCycles := s.nCycles + 1 }

def State.afterWriteBack (s : State) (l : MWb) : State :=
  { s.writtenBack l with nRetired := s.nRetired + 1, cursor := 0, nCycles := s.nCycles + 1 }

/-- After the cycle that fetches `END_WORD`. -/
def State.afterEnd (s : State) : State :=
  { s with
    ifid := Latch.bubble IfId.zero
    cursor := 1
    status := .ended
    fetchDone := true
    nCycles := s.nCycles + 1 }

section

variable (s : State) (hr : s.status = .running) (hp : s.pipelined = false)

include hr hp

theorem fetch_cycle_refused (hf : s.fetchDone = false) (hc : s.cursor = 0) (hw : s.busWord s.fetchAddress = none) :
    cycle s = .fault (.instructionFetchFailure s.fetchAddress) := by
  refine cycle_of_activeStage_error s _ hr hp ?_
  simp [activeStage, hc, fetchPropagate, hf, applyDelaySlot_fetchWord, hw]

/-- The cycle that fetches a word other than `END_WORD` (R315 to R318). -/
theorem fetch_cycle (w : Word) (hf : s.fetchDone = false) (hc : s.cursor = 0) (hw : s.busWord s.fetchAddress = some w)
    (he : w ≠ s.endWord) : cycle s = .next (s.applyDelaySlot.afterFetch w) := by
  have ha : activeStage s = .ok (fetchClock s.applyDelaySlot (some { pc := s.applyDelaySlot.pc, iw := w })) := by
    simp [activeStage, hc, fetchPropagate, hf, applyDelaySlot_fetchWord, hw, he]
  rw [cycle_of_activeStage s _ hr hp ha, endCycle_of_fetching _ (by simpa using hf)]
  simp [fetchClock, State.afterFetch, hc]

/-- The cycle that fetches `END_WORD` ends the run (R317, R344). -/
theorem end_cycle (hf : s.fetchDone = false) (hc : s.cursor = 0) (hw : s.busWord s.fetchAddress = some s.endWord) :
    cycle s = .next s.applyDelaySlot.afterEnd := by
  have ha : activeStage s = .ok (fetchClock { s.applyDelaySlot with fetchDone := true } none) := by
    simp [activeStage, hc, fetchPropagate, hf, applyDelaySlot_fetchWord, hw]
  rw [cycle_of_activeStage s _ hr hp ha]
  simp [fetchClock, State.afterEnd, Latch.commit, State.endCycle, State.checkEnd, hc, hp]

theorem decode_cycle_illegal (l : IfId) (r : Reject) (hc : s.cursor = 1) (hl : s.ifid.out = some l)
    (hm : resolve s.endWord l.iw = .error r) : cycle s = .fault (.illegalInstruction l.pc l.iw) := by
  refine cycle_of_activeStage_error s _ hr hp ?_
  simp [activeStage, hc, decodePropagate, hl, hm]

theorem decode_cycle (hf : s.fetchDone = false) (l : IfId) (m : Mnemonic) (hc : s.cursor = 1) (hl : s.ifid.out = some l)
    (hm : resolve s.endWord l.iw = .ok m) : cycle s = .next (s.afterDecode (decodeResolved s l m)) := by
  have ha : activeStage s = .ok (decodeClock s (some (decodeResolved s l m))) := by
    simp [activeStage, hc, decodePropagate, hl, hm]
  rw [cycle_of_activeStage s _ hr hp ha, endCycle_of_fetching _ (by simpa using hf), decodeClock_some]
  simp [State.decoded, State.afterDecode, hc]

theorem execute_cycle (hf : s.fetchDone = false) (l : IdEx) (v : Word) (hc : s.cursor = 2) (hl : s.idex.out = some l)
    (hv : executeResult l = .ok v) : cycle s = .next (s.afterExecute (l.executed v)) := by
  have ha : activeStage s = .ok (executeClock s (some (l.executed v))) := by
    simp [activeStage, hc, executePropagate, hl, hv, IdEx.executed]
  rw [cycle_of_activeStage s _ hr hp ha, endCycle_of_fetching _ (by simpa using hf)]
  simp [executeClock, State.afterExecute, hc]

theorem memory_cycle_refused (l : ExM) (r : Fault) (hc : s.cursor = 3) (hl : s.exm.out = some l)
    (ha : memoryAccess s l = .error r) : cycle s = .fault r := by
  refine cycle_of_activeStage_error s _ hr hp ?_
  simp [activeStage, hc, memoryStage, hl, ha]

theorem memory_cycle (hf : s.fetchDone = false) (l : ExM) (mem : Memory) (x : Word) (hc : s.cursor = 3) (hl : s.exm.out = some l)
    (ha : memoryAccess s l = .ok (mem, x)) : cycle s = .next (s.afterMemory mem (l.accessed x)) := by
  have ha : activeStage s = .ok (memoryClock s (mem, some (l.accessed x))) := by
    simp [activeStage, hc, memoryStage, hl, ha, ExM.accessed]
  rw [cycle_of_activeStage s _ hr hp ha, endCycle_of_fetching _ (by simpa using hf)]
  simp [memoryClock, State.afterMemory, hc]

theorem writeBack_cycle (hf : s.fetchDone = false) (l : MWb) (hc : s.cursor = 4) (hl : s.mwb.out = some l) :
    cycle s = .next (s.afterWriteBack l) := by
  have hw : (writeBackClock s (some l)).cursor = 4 := by rw [writeBackClock_cursor, hc]
  have hn : (writeBackClock s (some l)).nCycles = s.nCycles := writeBackClock_nCycles _ _
  have ha : activeStage s = .ok (writeBackClock s (some l)) := by
    simp [activeStage, hc, hl]
  rw [cycle_of_activeStage s _ hr hp ha, endCycle_of_fetching _ (by simpa using hf), hw, hn, writeBackClock_some]
  rfl

end

/-! ### Five cycles -/

/-- `s` with the latches of `u`: the instruction level does not look at them (log entry 8). -/
def State.withLatches (s u : State) : State := { s with ifid := u.ifid, idex := u.idex, exm := u.exm, mwb := u.mwb }

theorem staged_withLatches (s u : State) (o : DecodeOutput) (mem : Memory) (l : MWb) :
    (s.withLatches u).staged o mem l = (s.staged o mem l).withLatches u := by
  unfold State.staged State.writtenBack State.writeReg
  split
  · split <;> rfl
  · rfl

theorem applyDelaySlot_withLatches (s u : State) : (s.withLatches u).applyDelaySlot = s.applyDelaySlot.withLatches u := by
  rw [applyDelaySlot_eq, applyDelaySlot_eq]
  rfl

/-- The last four cycles, from the instruction in IF/ID on. -/
theorem four_cycles (s : State) (hr : s.status = .running) (hp : s.pipelined = false) (hf : s.fetchDone = false) (hc : s.cursor = 0)
    (w v x : Word) (m : Mnemonic) (mem : Memory) (o : DecodeOutput) (hm : resolve s.endWord w = .ok m)
    (ho : s.decodedWord m w = o) (hv : executeResult o.latch = .ok v)
    (ha : memoryAccess s (o.latch.executed v) = .ok (mem, x)) :
    ∃ u, cycles 4 (s.afterFetch w) = .next ((s.staged o mem ((o.latch.executed v).accessed x)).withLatches u) := by
  have hdecode : cycle (s.afterFetch w) = .next ((s.afterFetch w).afterDecode o) := by
    rw [← ho]
    exact decode_cycle (s.afterFetch w) hr hp hf _ m rfl rfl hm
  have hexecute := execute_cycle ((s.afterFetch w).afterDecode o) hr hp hf o.latch v rfl rfl hv
  have hmemory := memory_cycle (((s.afterFetch w).afterDecode o).afterExecute (o.latch.executed v)) hr hp hf
    (o.latch.executed v) mem x rfl rfl ha
  have hwrite := writeBack_cycle
    ((((s.afterFetch w).afterDecode o).afterExecute (o.latch.executed v)).afterMemory mem ((o.latch.executed v).accessed x))
    hr hp hf ((o.latch.executed v).accessed x) rfl rfl
  refine ⟨(((s.afterFetch w).afterDecode o).afterExecute (o.latch.executed v)).afterMemory mem ((o.latch.executed v).accessed x), ?_⟩
  rw [cycles_succ 3 _ _ hdecode, cycles_succ 2 _ _ hexecute, cycles_succ 1 _ _ hmemory, cycles_succ 0 _ _ hwrite]
  unfold State.afterWriteBack
  rw [← hc]
  unfold State.staged State.writtenBack State.writeReg
  split
  · split <;> rfl
  · rfl

/-- The fourth cycle of five meets the fault of a refused access. -/
theorem four_cycles_fault (s : State) (hr : s.status = .running) (hp : s.pipelined = false) (hf : s.fetchDone = false)
    (w v : Word) (r : Fault) (m : Mnemonic) (hm : resolve s.endWord w = .ok m)
    (hv : executeResult (s.decodedWord m w).latch = .ok v)
    (ha : memoryAccess s ((s.decodedWord m w).latch.executed v) = .error r) :
    cycles 4 (s.afterFetch w) = .fault r := by
  have hdecode : cycle (s.afterFetch w) = .next ((s.afterFetch w).afterDecode (s.decodedWord m w)) :=
    decode_cycle (s.afterFetch w) hr hp hf _ m rfl rfl hm
  generalize s.decodedWord m w = o at *
  have hexecute := execute_cycle ((s.afterFetch w).afterDecode o) hr hp hf o.latch v rfl rfl hv
  have hmemory := memory_cycle_refused (((s.afterFetch w).afterDecode o).afterExecute (o.latch.executed v)) hr hp
    (o.latch.executed v) r rfl rfl ha
  rw [cycles_succ 3 _ _ hdecode, cycles_succ 2 _ _ hexecute, cycles_succ_fault 1 _ r hmemory]

/-! ### A step and its cycles -/

/-- An instruction leaves the orchestrator's cells and the parameters alone. -/
theorem staged_control (s : State) (o : DecodeOutput) (mem : Memory) (l : MWb) :
    (s.staged o mem l).status = s.status ∧ (s.staged o mem l).pipelined = s.pipelined ∧ (s.staged o mem l).cursor = s.cursor ∧
    (s.staged o mem l).fetchDone = s.fetchDone ∧ (s.staged o mem l).endWord = s.endWord ∧ (s.staged o mem l).bus = s.bus := by
  unfold State.staged State.writtenBack
  split <;> simp [State.decoded]

/-- A step from a boundary that answers a next state has fetched and decoded an instruction. -/
theorem step_next_word (s t : State) (hr : s.status = .running) (hp : s.pipelined = false) (hc : s.cursor = 0)
    (hf : s.fetchDone = false) (h : step s = .next t) :
    ∃ w m, s.busWord s.fetchAddress = some w ∧ resolve s.endWord w = .ok m ∧ exec (operandsOf m w) s.applyDelaySlot = .next t := by
  rw [step_at_boundary s hr hp hc hf] at h
  rcases instructionStep_cases s with ⟨r, _, h'⟩ | ⟨w, r, _, _, h'⟩ | ⟨w, i, hw, hi, h'⟩
  · cases h'.symm.trans h
  · cases h'.symm.trans h
  · obtain ⟨m, hm, rfl⟩ := (decode_eq_ok_iff s.endWord w i).mp hi
    exact ⟨w, m, busWord_of_fetchWord s w hw, hm, h'.symm.trans h⟩

/-- What resolves to the end of the test is `END_WORD`, and nothing else does. -/
theorem resolve_eq_endOfTest_iff (e w : Word) (m : Mnemonic) (h : resolve e w = .ok m) : m = .endOfTest ↔ w = e := by
  constructor
  · intro hm
    by_contra hw
    exact resolve_ne_endOfTest e w m hw h hm
  · rintro rfl
    exact Except.ok.inj (h.symm.trans (resolve_endWord w))

section

variable (s t : State) (hr : s.status = .running) (hp : s.pipelined = false) (hc : s.cursor = 0) (hf : s.fetchDone = false)

include hr hp hc hf

/-- A step that does not end the run is five cycles, whatever the latches hold. -/
theorem step_running_cycles (h : step s = .next t) (ht : t.status = .running) (u : State) :
    ∃ v, cycles 5 (s.withLatches u) = .next (t.withLatches v) := by
  obtain ⟨w, m, hw, hm, hx⟩ := step_next_word s t hr hp hc hf h
  have hme : m ≠ .endOfTest := by
    rintro rfl
    cases (exec_endOfTest _).symm.trans hx
    cases ht
  have he : w ≠ s.endWord := mt (resolve_eq_endOfTest_iff s.endWord w m hm).mpr hme
  obtain ⟨v, mem, x, hv, ha, rfl⟩ := exec_next_stages m w s.applyDelaySlot t hme hx
  have hfetch := fetch_cycle (s.withLatches u) hr hp w hf hc hw he
  rw [applyDelaySlot_withLatches] at hfetch
  obtain ⟨l, hl⟩ := four_cycles (s.applyDelaySlot.withLatches u) ((applyDelaySlot_status s).trans hr)
    ((applyDelaySlot_pipelined s).trans hp) ((applyDelaySlot_fetchDone s).trans hf) ((applyDelaySlot_cursor s).trans hc)
    w v x m mem _ ((congrArg (resolve · w) (applyDelaySlot_endWord s)).trans hm) rfl hv ha
  refine ⟨l, (cycles_succ 4 _ _ hfetch).trans (hl.trans ?_)⟩
  rw [staged_withLatches]
  rfl

/-- A step that ends the run is one cycle, whatever the latches hold. -/
theorem step_ended_cycle (h : step s = .next t) (ht : t.status = .ended) (u : State) :
    ∃ v, cycle (s.withLatches u) = .next v ∧ v.observe = t.observe ∧ v.fetchDone = true := by
  obtain ⟨w, m, hw, hm, hx⟩ := step_next_word s t hr hp hc hf h
  by_cases hme : m = .endOfTest
  · subst hme
    obtain rfl := (resolve_eq_endOfTest_iff s.endWord w _ hm).mp rfl
    cases (exec_endOfTest _).symm.trans hx
    have hend := end_cycle (s.withLatches u) hr hp hf hc hw
    rw [applyDelaySlot_withLatches] at hend
    exact ⟨_, hend, rfl, rfl⟩
  · obtain ⟨v, mem, x, _, _, rfl⟩ := exec_next_stages m w s.applyDelaySlot t hme hx
    obtain ⟨hs, _⟩ := staged_control s.applyDelaySlot (s.applyDelaySlot.decodedWord m w) mem
      (((s.applyDelaySlot.decodedWord m w).latch.executed v).accessed x)
    rw [applyDelaySlot_status, hr] at hs
    cases hs.symm.trans ht

/-- A step ends the run or comes to the next boundary. -/
theorem step_next_boundary (h : step s = .next t) :
    t.status = .ended ∨ (t.status = .running ∧ t.pipelined = false ∧ t.cursor = 0 ∧ t.fetchDone = false ∧
      t.endWord = s.endWord ∧ t.bus = s.bus) := by
  obtain ⟨w, m, hw, hm, hx⟩ := step_next_word s t hr hp hc hf h
  by_cases hme : m = .endOfTest
  · subst hme
    cases (exec_endOfTest _).symm.trans hx
    exact .inl rfl
  · obtain ⟨v, mem, x, _, _, rfl⟩ := exec_next_stages m w s.applyDelaySlot t hme hx
    have hcontrol := staged_control s.applyDelaySlot
      (s.applyDelaySlot.decodedWord m w) mem
      (((s.applyDelaySlot.decodedWord m w).latch.executed v).accessed x)
    simp only [applyDelaySlot_status, applyDelaySlot_pipelined, applyDelaySlot_cursor, applyDelaySlot_fetchDone,
      applyDelaySlot_endWord, applyDelaySlot_bus, hr, hp, hc, hf] at hcontrol
    exact .inr hcontrol

/-- A step that faults faults within its five cycles. -/
theorem step_fault_cycles (r : Fault) (h : step s = .fault r) : cycles 5 s = .fault r := by
  cases hw : s.busWord s.fetchAddress with
  | none =>
    cases (step_fetch_refused s hr hp hc hf hw).symm.trans h
    exact cycles_succ_fault 4 s _ (fetch_cycle_refused s hr hp hf hc hw)
  | some w =>
    have hme (he : w = s.endWord) : False := by
      subst he
      have hd : decode s.endWord s.endWord = .ok .endOfTest := (decode_eq_ok_iff _ _ _).mpr ⟨_, resolve_endWord _, rfl⟩
      cases (exec_endOfTest _).symm.trans ((step_decoded s hr hp hc hf _ _ hw hd).symm.trans h)
    have hfetch := cycles_succ 4 _ _ (fetch_cycle s hr hp w hf hc hw hme)
    have hr' := (applyDelaySlot_status s).trans hr
    have hp' := (applyDelaySlot_pipelined s).trans hp
    have hf' := (applyDelaySlot_fetchDone s).trans hf
    have hresolve : ∀ o, resolve s.endWord w = o → resolve (s.applyDelaySlot.afterFetch w).endWord w = o :=
      fun o ho => (congrArg (resolve · w) (applyDelaySlot_endWord s)).trans ho
    cases hm : resolve s.endWord w with
    | error e =>
      have hd : decode s.endWord w = .error e := by rw [decode, hm]
      cases (step_illegal s hr hp hc hf w e hw hd).symm.trans h
      rw [hfetch, ← applyDelaySlot_pc]
      exact cycles_succ_fault 3 _ _ (decode_cycle_illegal (s.applyDelaySlot.afterFetch w) hr' hp' _ e rfl rfl (hresolve _ hm))
    | ok m =>
      have hne := mt (resolve_eq_endOfTest_iff s.endWord w m hm).mp hme
      have hd : decode s.endWord w = .ok (operandsOf m w) := (decode_eq_ok_iff _ _ _).mpr ⟨m, hm, rfl⟩
      obtain ⟨v, hv, ha⟩ := exec_fault_stages m w s.applyDelaySlot r hne ((step_decoded s hr hp hc hf w _ hw hd).symm.trans h)
      rw [hfetch]
      exact four_cycles_fault s.applyDelaySlot hr' hp' hf' w v r m (hresolve _ hm) hv ha

end

/-- Settles O46, from a step and its cycles. -/
theorem fiveCyclesAreOneStep : Obligations.FiveCyclesAreOneStep := by
  intro s hr hp hc hf
  refine ⟨fun t h ht => ?_, fun t h ht => step_ended_cycle s t hr hp hc hf h ht s, fun r h => step_fault_cycles s hr hp hc hf r h⟩
  obtain ⟨v, hv⟩ := step_running_cycles s t hr hp hc hf h ht s
  rcases step_next_boundary s t hr hp hc hf h with he | ⟨_, hpt, hct, hft, hwt, hbt⟩
  · cases he.symm.trans ht
  · exact ⟨_, hv, rfl, hct, hft, hpt, hwt, hbt⟩

/-! ### Whole runs -/

/-- A run that answers a next state starts with a step that does. -/
theorem run_succ_next (k : Nat) (s t : State) (h : Host.Core.run Sys2Proof.core (k + 1) s = .next t) :
    ∃ s', step s = .next s' ∧ Host.Core.run Sys2Proof.core k s' = .next t := by
  simp only [Host.Core.run] at h
  split at h
  · next s' hs => exact ⟨s', hs, h⟩
  · cases h
  · cases h

theorem run_of_ended (k : Nat) (s : State) (h : s.status = .ended) : Host.Core.run Sys2Proof.core k s = .next s := by
  induction k with
  | zero => rfl
  | succ k ih =>
    have hstep : Sys2Proof.core.step s = .next s := (stoppedCoreStays.1 s h).1
    simp only [Host.Core.run, hstep]
    exact ih

/-- A run from a boundary that ends is a run of clock cycles that ends in a state the host sees as the same, whatever the latches
hold. -/
theorem run_ended_cycles (k : Nat) (t : State) (ht : t.status = .ended) :
    ∀ s : State, s.status = .running → s.pipelined = false → s.cursor = 0 → s.fetchDone = false →
      Host.Core.run Sys2Proof.core k s = .next t → ∀ u, ∃ n v, cycles n (s.withLatches u) = .next v ∧ v.observe = t.observe := by
  induction k with
  | zero =>
    intro s hr _ _ _ h
    cases h
    cases hr.symm.trans ht
  | succ k ih =>
    intro s hr hp hc hf h u
    obtain ⟨s', hs, h⟩ := run_succ_next k s t h
    rcases step_next_boundary s s' hr hp hc hf hs with he | ⟨hr', hp', hc', hf', _⟩
    · cases (run_of_ended k s' he).symm.trans h
      obtain ⟨v, hv, ho, _⟩ := step_ended_cycle s _ hr hp hc hf hs he u
      exact ⟨1, v, (cycles_one _).trans hv, ho⟩
    · obtain ⟨u', hu'⟩ := step_running_cycles s s' hr hp hc hf hs hr' u
      obtain ⟨n, v, hn, ho⟩ := ih s' hr' hp' hc' hf' h u'
      exact ⟨5 + n, v, (cycles_add 5 n _ _ hu').trans hn, ho⟩

/-- Settles O47, by induction over the steps of the run. -/
theorem wholeRunsAgree : Obligations.WholeRunsAgree := by
  intro s t k hs hp h ht
  obtain ⟨_, _, _, hc⟩ := hs.cells
  obtain ⟨hr, hf⟩ := hs.running
  obtain ⟨n, v, hn, ho⟩ := run_ended_cycles k t ht s hr hp hc hf h s
  exact ⟨v, ⟨n, hn, (congrArg Observation.status ho).trans ht⟩, ho⟩

end Sys2Proof.Machine

/-! PROOFS. Which stage writes what in a cycle (10_state.md R20 to R34, 46_pipeline.md R315 to R344). -/

namespace Sys2Proof.Machine

/-! ### What each stage leaves alone -/

/-- Fetch writes `PC`, `DS` and `fetch_done` alone (R315 to R318). -/
theorem FetchAnswer.same {s s1 : State} {f : Option IfId} (hf : FetchAnswer s s1 f) :
    s1.flag = s.flag ∧ s1.npc = s.npc ∧ s1.mem = s.mem ∧ s1.regs = s.regs ∧ s1.pipelined = s.pipelined := by
  cases hf <;> simp

/-- `PC` and `DS` after fetch (R315, R318). -/
theorem FetchAnswer.pc_ds {s s1 : State} {f : Option IfId} (hf : FetchAnswer s s1 f) :
    (fetchClock s1 f).pc = (if s.fetchDone then s.pc else if s1.fetchDone then s.fetchAddress else s.fetchAddress + 4#32) ∧
    s1.ds = (if s.fetchDone then s.ds else if s.ds = 1 then 2 else 0) := by
  cases hf with
  | stopped hd => simp [hd]
  | ends hd => simp [hd]
  | word hd => simp [hd]

/-- A taken transfer in decode writes its target (R321, R322). -/
theorem DecodeAnswer.target_some {s : State} {d : Option DecodeOutput} (hd : DecodeAnswer s d) (l : IfId) (m : Mnemonic)
    (hl : s.ifid.out = some l) (hm : resolve s.endWord l.iw = .ok m) (ht : transferTaken m s.flag = true) :
    d.bind (·.target) = some (l.pc + displacement m (getImmediate m l.iw) (s.readReg (secondReadIndex m l.iw))) := by
  cases hd with
  | bubble hl' => cases hl.symm.trans hl'
  | resolved l' m' hl' hm' =>
    cases hl.symm.trans hl'
    cases hm.symm.trans hm'
    simp [decodeResolved, ht]

/-- Without a taken transfer decode has no target (R321). -/
theorem DecodeAnswer.target_none {s : State} {d : Option DecodeOutput} (hd : DecodeAnswer s d)
    (h : ∀ l m, s.ifid.out = some l → resolve s.endWord l.iw = .ok m → transferTaken m s.flag = false) :
    d.bind (·.target) = none := by
  cases hd with
  | bubble => rfl
  | resolved l m hl hm => simp [decodeResolved, h l m hl hm]

/-! ### The writers of a cycle -/

section

variable (s t : State) (h : cycle s = .next t)

include h

/-- Only decode writes `FLAG` and `NPC` (R27, R29). -/
theorem cycle_flag_npc (hp : s.pipelined = true → s.ifid.valid = false) (hn : s.pipelined = false → s.cursor ≠ 1) :
    t.flag = s.flag ∧ t.npc = s.npc := by
  rcases cycle_next_cases s t h with hr | ⟨_, rfl⟩
  · cases hm : s.pipelined with
    | true =>
      obtain ⟨s1, f, d, e, m, hf, hd, _, _, rfl⟩ := pipelined_cycle s t hr hm h
      obtain ⟨hflag, hnpc, _⟩ := hf.same
      cases hd with
      | bubble => simp [hflag, hnpc]
      | resolved l k hl =>
        have hv := out_isSome s.ifid
        rw [hl, hp hm] at hv
        cases hv
    | false =>
      obtain ⟨u, hu, rfl⟩ := roundRobin_cycle s t hr hm h
      cases hu with
      | fetch _ s1 f hf =>
        obtain ⟨hflag, hnpc, _⟩ := hf.same
        simp [hflag, hnpc]
      | decode hc => exact absurd hc (hn hm)
      | execute | memory | writeBack => simp
  · exact ⟨rfl, rfl⟩

/-- Only the memory stage writes memory (R331). -/
theorem cycle_mem (hp : s.pipelined = true → s.exm.valid = false) (hn : s.pipelined = false → s.cursor ≠ 3) : t.mem = s.mem := by
  rcases cycle_next_cases s t h with hr | ⟨_, rfl⟩
  · cases hm : s.pipelined with
    | true =>
      obtain ⟨s1, f, d, e, m, hf, _, _, hmem, rfl⟩ := pipelined_cycle s t hr hm h
      cases hmem with
      | bubble => simp
      | access l m v hl =>
        have hv := out_isSome s.exm
        rw [hl, hp hm] at hv
        cases hv
    | false =>
      obtain ⟨u, hu, rfl⟩ := roundRobin_cycle s t hr hm h
      cases hu with
      | fetch _ s1 f hf =>
        obtain ⟨_, _, hmem, _⟩ := hf.same
        simp [hmem]
      | memory hc => exact absurd hc (hn hm)
      | decode | execute | writeBack => simp
  · rfl

/-- The registers are what write-back leaves, in a cycle in which it acts (R336, R341, R342). -/
theorem cycle_readReg (hr : s.status = .running) (hc : s.pipelined = false → s.cursor = 4) (i : RegIdx) :
    t.readReg i = (writeBackClock s s.mwb.out).readReg i := by
  cases hm : s.pipelined with
  | true =>
    obtain ⟨s1, f, d, e, m, hf, _, _, _, rfl⟩ := pipelined_cycle s t hr hm h
    obtain ⟨_, _, _, hregs, _⟩ := hf.same
    rw [endCycle_readReg, writeBackClock_readReg, writeBackClock_readReg,
      readReg_congr s (memoryClock (executeClock (decodeClock (fetchClock s1 f) d) e) m) (by simpa using hregs)]
  | false =>
    obtain ⟨u, hu, rfl⟩ := roundRobin_cycle s t hr hm h
    have hc := hc hm
    cases hu with
    | writeBack => exact endCycle_readReg _ i
    | fetch hc' | decode hc' | execute hc' | memory hc' =>
      rw [hc] at hc'
      exact absurd hc' (by decide)

/-- Only write-back writes the registers (R22, R336). -/
theorem cycle_sameRegisters (hp : s.pipelined = true → s.mwb.valid = false) (hn : s.pipelined = false → s.cursor ≠ 4) :
    SameRegisters s t := by
  intro i
  rcases cycle_next_cases s t h with hr | ⟨_, rfl⟩
  · cases hm : s.pipelined with
    | true =>
      rw [cycle_readReg s t h hr (by simp [hm]), (out_eq_none_iff _).mpr (hp hm)]
      rfl
    | false =>
      obtain ⟨u, hu, rfl⟩ := roundRobin_cycle s t hr hm h
      refine readReg_congr s _ ?_ i
      cases hu with
      | fetch _ s1 f hf =>
        obtain ⟨_, _, _, hregs, _⟩ := hf.same
        simpa using hregs
      | writeBack hc => exact absurd hc (hn hm)
      | decode | execute | memory => simp
  · rfl

/-- Write-back writes the one register its latch names (R334, R335). -/
theorem cycle_writes (l : MWb) (hr : s.status = .running) (hl : s.mwb.out = some l) (hc : s.pipelined = false → s.cursor = 4) :
    (writeEnabled l = false → SameRegisters s t) ∧
    (writeEnabled l = true → SameRegistersBut (writeBackIndex l) s t ∧
      t.readReg (writeBackIndex l) = if writeBackIndex l = 0#5 then 0#32 else writeBackValue l) := by
  have hreg : ∀ i, t.readReg i = if writeEnabled l = true ∧ writeBackIndex l = i then
      (if i = 0#5 then 0#32 else writeBackValue l) else s.readReg i := by
    intro i
    rw [cycle_readReg s t h hr hc, writeBackClock_readReg, hl]
  refine ⟨fun hw i => ?_, fun hw => ⟨fun i hi => ?_, ?_⟩⟩
  · rw [hreg, if_neg (by simp [hw])]
  · rw [hreg, if_neg (fun hc => hi hc.2.symm)]
  · rw [hreg, if_pos ⟨hw, rfl⟩]

/-- Only fetch writes `PC`, and only fetch and decode write `DS` (R26, R28). -/
theorem cycle_pc_ds_outside (hp : s.pipelined = false) (hc : s.cursor ≠ 0) : t.pc = s.pc ∧ (s.cursor ≠ 1 → t.ds = s.ds) := by
  rcases cycle_next_cases s t h with hr | ⟨_, rfl⟩
  · obtain ⟨u, hu, rfl⟩ := roundRobin_cycle s t hr hp h
    cases hu with
    | fetch hc' => exact absurd hc' hc
    | decode hc' d hd => exact ⟨by simp, fun h1 => absurd hc' h1⟩
    | execute | memory | writeBack => simp
  · exact ⟨rfl, fun _ => rfl⟩

/-- `PC` after a cycle in which fetch acts (R315, R318). -/
theorem cycle_pc (hr : s.status = .running) (hc : s.pipelined = true ∨ s.cursor = 0) :
    t.pc = if s.fetchDone then s.pc else if t.fetchDone then s.fetchAddress else s.fetchAddress + 4#32 := by
  cases hp : s.pipelined with
  | true =>
    obtain ⟨s1, f, d, e, m, hf, _, _, _, rfl⟩ := pipelined_cycle s t hr hp h
    simpa using hf.pc_ds.1
  | false =>
    obtain ⟨u, hu, rfl⟩ := roundRobin_cycle s t hr hp h
    have hc : s.cursor = 0 := by simpa [hp] using hc
    cases hu with
    | fetch _ s1 f hf => simpa using hf.pc_ds.1
    | decode hc' | execute hc' | memory hc' | writeBack hc' =>
      rw [hc] at hc'
      exact absurd hc' (by decide)

/-- `DS` after fetch's own cycle (R315). -/
theorem cycle_fetch_ds (hr : s.status = .running) (hp : s.pipelined = false) (hc : s.cursor = 0) :
    t.ds = if s.fetchDone then s.ds else if s.ds = 1 then 2 else 0 := by
  obtain ⟨u, hu, rfl⟩ := roundRobin_cycle s t hr hp h
  cases hu with
  | fetch _ s1 f hf => simpa using hf.pc_ds.2
  | decode hc' | execute hc' | memory hc' | writeBack hc' =>
    rw [hc] at hc'
    exact absurd hc' (by decide)

/-- `NPC` and `DS` after a cycle in which decode acts, by the target it answers (R321, R322). -/
theorem cycle_decode_transfer (hr : s.status = .running) (hc : s.pipelined = true ∨ s.cursor = 1) :
    ∃ d, DecodeAnswer s d ∧ t.npc = (d.bind (·.target)).getD s.npc ∧
      t.ds = if (d.bind (·.target)).isSome then (if s.pipelined then 2 else 1)
        else if s.pipelined = false ∨ s.fetchDone = true then s.ds else if s.ds = 1 then 2 else 0 := by
  cases hp : s.pipelined with
  | true =>
    obtain ⟨s1, f, d, e, m, hf, hd, _, _, rfl⟩ := pipelined_cycle s t hr hp h
    obtain ⟨_, hnpc, _, _, hp1⟩ := hf.same
    obtain ⟨_, hds⟩ := hf.pc_ds
    exact ⟨d, hd, by simp [hnpc], by simp [hds, hp1, hp]⟩
  | false =>
    obtain ⟨u, hu, rfl⟩ := roundRobin_cycle s t hr hp h
    have hc : s.cursor = 1 := by simpa [hp] using hc
    cases hu with
    | decode _ d hd => exact ⟨d, hd, by simp, by simp [hp]⟩
    | fetch hc' | execute hc' | memory hc' | writeBack hc' =>
      rw [hc] at hc'
      exact absurd hc' (by decide)

end

/-- Settles O54, clause by clause. -/
theorem stageWriters : Obligations.StageWriters := by
  intro s t h
  refine ⟨cycle_flag_npc s t h, cycle_mem s t h, cycle_sameRegisters s t h, cycle_writes s t h, ?_, ?_, cycle_pc s t h,
    cycle_fetch_ds s t h, fun hr hc => ⟨fun l m hl hm ht => ?_, fun hn => ?_⟩, cycle_parameters s t h⟩
  · exact fun hp hc => (cycle_pc_ds_outside s t h hp hc).1
  · exact fun hp hc => (cycle_pc_ds_outside s t h hp hc).2
  · obtain ⟨d, hd, _, hds⟩ := cycle_decode_transfer s t h hr hc
    rw [hds, hd.target_some l m hl hm ht]
    rfl
  · obtain ⟨d, hd, hnpc, hds⟩ := cycle_decode_transfer s t h hr hc
    rw [hds, hnpc, hd.target_none hn]
    exact ⟨rfl, rfl⟩

end Sys2Proof.Machine

/-! PROOFS. The fetch streams, the order of faults in a cycle and the life of one instruction in the pipelined core
(44_control_transfer.md R270 to R279, 60_exceptions.md R367, 70_reset_and_hazards.md R386 to R389). -/

namespace Sys2Proof.Machine

/-! ### The fetch stream of the non-pipelined core -/

/-- The shared cells a completed instruction leaves (R321, R322, R331, R345). -/
theorem staged_cells (s : State) (o : DecodeOutput) (mem : Memory) (l : MWb) :
    (s.staged o mem l).flag = o.newFlag.getD s.flag ∧ (s.staged o mem l).npc = o.target.getD s.npc ∧
    (s.staged o mem l).mem = mem ∧ (s.staged o mem l).pc = s.pc + 4#32 ∧
    (s.staged o mem l).ds = if o.target.isSome then (if s.pipelined then 2 else 1) else s.ds := by
  unfold State.staged State.writtenBack
  split <;> simp [State.decoded]

/-- The registers a completed instruction leaves (R334 to R336). -/
theorem staged_readReg (s : State) (o : DecodeOutput) (mem : Memory) (l : MWb) (i : RegIdx) :
    (s.staged o mem l).readReg i = (writeBackClock s (some l)).readReg i :=
  calc (s.staged o mem l).readReg i
    _ = (writeBackClock { s.decoded o with mem := mem } (some l)).readReg i := rfl
    _ = (writeBackClock s (some l)).readReg i := by
      rw [writeBackClock_readReg, writeBackClock_readReg]
      rfl

theorem fetchAddress_of_ne_two (s : State) (h : s.ds ≠ 2) : s.fetchAddress = s.pc := if_neg h

theorem fetchAddress_of_eq_two (s : State) (h : s.ds = 2) : s.fetchAddress = s.npc := if_pos h

/-- The target decode answers (R321). -/
theorem decodeResolved_target (s : State) (l : IfId) (m : Mnemonic) :
    (decodeResolved s l m).target = if transferTaken m s.flag then
      some (l.pc + displacement m (getImmediate m l.iw) (s.readReg (secondReadIndex m l.iw))) else none := rfl

/-- Settles O52: the delay-slot protocol of fetch, then decode's transfer. -/
theorem nonPipelinedDelaySlot : Obligations.NonPipelinedDelaySlot := by
  intro s t w i hr hp hc hf hw hd hi h
  obtain ⟨_, hops⟩ := resolve_of_decode s.endWord w i hd
  have hx := (step_decoded s hr hp hc hf w i hw hd).symm.trans h
  rw [← hops] at hx
  obtain ⟨v, mem, x, _, _, ht⟩ := exec_next_stages i.mnemonic w s.applyDelaySlot t (mt (mnemonic_eq_endOfTest_iff i).mp hi) hx
  obtain ⟨_, hnpc, _, hpc, hds⟩ := staged_cells s.applyDelaySlot
    (s.applyDelaySlot.decodedWord i.mnemonic w) mem
    (((s.applyDelaySlot.decodedWord i.mnemonic w).latch.executed v).accessed x)
  rw [← ht, applyDelaySlot_pc] at hpc
  rw [← ht, State.decodedWord, decodeResolved_target, applyDelaySlot_npc, applyDelaySlot_flag] at hnpc
  rw [← ht, State.decodedWord, decodeResolved_target, applyDelaySlot_pipelined, hp, applyDelaySlot_ds, applyDelaySlot_flag] at hds
  refine ⟨fun htaken => ?_, fun hnot => ⟨fun h1 => ?_, fun h2 => ?_, fun h0 => ?_⟩⟩
  · have hds : t.ds = 1 := by simpa [htaken] using hds
    exact ⟨hds, (fetchAddress_of_ne_two t (by rw [hds]; decide)).trans hpc⟩
  · have hds : t.ds = 2 := by simpa [hnot, h1] using hds
    exact ⟨hds, (fetchAddress_of_eq_two t hds).trans (by simpa [hnot] using hnpc)⟩
  · have hds : t.ds = 0 := by simpa [hnot, h2] using hds
    rw [fetchAddress_of_eq_two s h2] at hpc ⊢
    exact ⟨hds, rfl, (fetchAddress_of_ne_two t (by rw [hds]; decide)).trans hpc⟩
  · have hds : t.ds = 0 := by simpa [hnot, h0] using hds
    rw [fetchAddress_of_ne_two s (by rw [h0]; decide)] at hpc
    exact ⟨hds, (fetchAddress_of_ne_two t (by rw [hds]; decide)).trans hpc⟩

/-! ### The fetch stream of the pipelined core -/

/-- A pipelined cycle after which fetch goes on has fetched (R316, R318). -/
theorem pipelined_fetched (s t : State) (hr : s.status = .running) (hp : s.pipelined = true) (h : cycle s = .next t)
    (hf : t.fetchDone = false) :
    s.fetchDone = false ∧ (∃ w, t.ifid.out = some { pc := s.fetchAddress, iw := w }) ∧ t.status = .running ∧
      t.pc = s.fetchAddress + 4#32 := by
  obtain ⟨hended, hstatus, _, hstop⟩ := termination s t hr h
  have hfs : s.fetchDone = false := by
    by_contra hn
    rw [hstop (by simpa using hn)] at hf
    cases hf
  have hpc := cycle_pc s t h hr (.inl hp)
  rw [hfs, hf] at hpc
  refine ⟨hfs, ?_, ?_, hpc⟩
  · obtain ⟨s1, f, d, e, m, hfetch, _, _, _, rfl⟩ := pipelined_cycle s t hr hp h
    cases hfetch with
    | stopped hd => cases hd.symm.trans hfs
    | ends => simp at hf
    | word _ w => exact ⟨w, by simp⟩
  · rcases hstatus with hs | hs
    · exact hs
    · rw [(hended.mp hs).1] at hf
      cases hf

/-- Settles O51: two cycles of fetch, with decode's transfer between them. -/
theorem pipelinedDelaySlot : Obligations.PipelinedDelaySlot := by
  intro s t u l m hi hr hp hl hm htaken h hft h' hfu
  obtain ⟨hfs, ⟨w, hslot⟩, hrt, _⟩ := pipelined_fetched s t hr hp h hft
  have hpt : t.pipelined = true := (cycle_parameters s t h).1.trans hp
  obtain ⟨_, ⟨w', hfirst⟩, _, hpc⟩ := pipelined_fetched t u hrt hpt h' hfu
  obtain ⟨d, hd, hnpc, hds⟩ := cycle_decode_transfer s t h hr (.inl hp)
  rw [hd.target_some l m hl hm htaken] at hnpc hds
  have hds : t.ds = 2 := by simpa [hp] using hds
  rw [fetchAddress_of_eq_two t hds] at hfirst hpc
  obtain ⟨k, hk, _⟩ := idex_of_decode t u _ hrt (fun hn => absurd (hpt.symm.trans hn) (by decide)) h' hslot
  obtain ⟨d', hd', _, hds'⟩ := cycle_decode_transfer t u h' hrt (.inl hpt)
  refine ⟨⟨_, hslot, rfl, k, hk, fun hnot => ?_, fun htaken' => ?_⟩, fun h2 => ?_, hds, ⟨_, hfirst, rfl, hpc⟩, hnpc⟩
  · have htarget : d'.bind (·.target) = none := by
      refine hd'.target_none fun l' m' hl' hm' => ?_
      cases hslot.symm.trans hl'
      cases hk.symm.trans hm'
      exact hnot
    have hds' : u.ds = 0 := by simpa [htarget, hpt, hft, hds] using hds'
    exact ⟨hds', (fetchAddress_of_ne_two u (by rw [hds']; decide)).trans hpc⟩
  · rw [hd'.target_some _ k hslot hk htaken'] at hds'
    simpa [hpt] using hds'
  · rw [fetchAddress_of_ne_two s h2]
    exact hi.pcFollows hp l hl

/-! ### The order of faults -/

/-- A fetch that has stopped, or that the bus answers, raises nothing. -/
theorem fetchPropagate_ok (s : State) (h : s.fetchDone = true ∨ (s.busWord s.fetchAddress).isSome = true) :
    ∃ o, fetchPropagate s = .ok o := by
  rcases fetchPropagate_cases s with ⟨_, h'⟩ | ⟨hd, r, hr, _⟩ | ⟨_, _, h'⟩ | ⟨_, _, _, _, h'⟩
  · exact ⟨_, h'⟩
  · rw [applyDelaySlot_fetchWord] at hr
    rcases h with h | h
    · cases h.symm.trans hd
    · obtain ⟨w, hw⟩ := Option.isSome_iff_exists.mp h
      rw [hw] at hr
      cases hr
  · exact ⟨_, h'⟩
  · exact ⟨_, h'⟩

theorem decodePropagate_ok (s : State) (h : ∀ l, s.ifid.out = some l → ∃ m, resolve s.endWord l.iw = .ok m) :
    ∃ d, decodePropagate s = .ok d := by
  rcases decodePropagate_cases s with ⟨_, h'⟩ | ⟨_, _, _, _, h'⟩ | ⟨l, r, hl, hr, _⟩
  · exact ⟨_, h'⟩
  · exact ⟨_, h'⟩
  · obtain ⟨m, hm⟩ := h l hl
    cases hm.symm.trans hr

theorem cycle_of_pipelinedStages_error (s : State) (r : Fault) (hr : s.status = .running) (hp : s.pipelined = true)
    (h : pipelinedStages s = .error r) : cycle s = .fault r := by
  simp [cycle, hr, runningCycle, hp, h, raise]

/-- A refused access in the memory stage (R331, R364). -/
theorem memoryStage_refused (s : State) (x : ExM) (hi : Inv s) (hx : s.exm.out = some x)
    (h : (x.ctl.memMode = .load ∧ busRead s.bus s.mem x.aluOut.toNat x.ctl.size = none) ∨
      (x.ctl.memMode = .store ∧ busWrite s.bus s.mem x.aluOut.toNat (toBigEndian x.ctl.size (x.rs2Val.setWidth 64)) = none)) :
    memoryStage s = .error (.dataAccessFailure x.aluOut) := by
  have hn : validSize x.ctl.size = true := by rw [(hi.exm x hx).bundle]; exact validSize_sizeOf x.instr
  have ha : memoryAccess s x = .error (.dataAccessFailure x.aluOut) := by
    rcases memoryAccess_cases s x hn with ⟨hm, _⟩ | ⟨hm, _, hb, _⟩ | ⟨_, _, h'⟩ | ⟨hm, _, hb, _⟩ | ⟨_, _, h'⟩
    · simp [hm] at h
    · simp [hm, hb] at h
    · exact h'
    · simp [hm, hb] at h
    · exact h'
  simp only [memoryStage, hx, ha]

/-- Settles O56: the stages answer in the order fetch, decode, execute, memory, and execute never fails. -/
theorem pipelinedFaultOrder : Obligations.PipelinedFaultOrder := by
  intro s hi hr hp
  refine ⟨fun hd hw => ?_, fun hfetch => ⟨fun l r hl hm => ?_, fun hdecode x hx => ?_⟩⟩
  · refine cycle_of_pipelinedStages_error s _ hr hp ?_
    simp [pipelinedStages, fetchPropagate, hd, applyDelaySlot_fetchWord, hw]
  · obtain ⟨o, ho⟩ := fetchPropagate_ok s hfetch
    refine cycle_of_pipelinedStages_error s _ hr hp ?_
    simp [pipelinedStages, ho, decodePropagate, hl, hm]
  · obtain ⟨o, ho⟩ := fetchPropagate_ok s hfetch
    obtain ⟨d, hd⟩ := decodePropagate_ok s hdecode
    obtain ⟨e, he⟩ := executePropagate_ok s hi
    refine ⟨fun hload hb => ?_, fun hstore hb => ?_⟩
    · refine cycle_of_pipelinedStages_error s _ hr hp ?_
      simp [pipelinedStages, ho, hd, he, memoryStage_refused s x hi hx (.inl ⟨hload, hb⟩)]
    · refine cycle_of_pipelinedStages_error s _ hr hp ?_
      simp [pipelinedStages, ho, hd, he, memoryStage_refused s x hi hx (.inr ⟨hstore, hb⟩)]

/-! ### The life of one instruction in the pipelined core -/

/-- A pipelined core with an instruction after decode still runs (R344). -/
theorem running_of_valid (s t : State) (hr : s.status = .running) (hp : s.pipelined = true) (h : cycle s = .next t)
    (hv : t.idex.valid = true ∨ t.exm.valid = true ∨ t.mwb.valid = true) : t.status = .running := by
  obtain ⟨hended, hstatus, _⟩ := termination s t hr h
  refine hstatus.resolve_right fun he => ?_
  have hd := (hended.mp he).2 hp
  rcases hv with hv | hv | hv
  all_goals simp [State.drained, hv] at hd

/-- The cycle that decodes an instruction: its latch, `FLAG`, `NPC` and `DS` (R321, R322). -/
theorem decode_pulse (s t : State) (l : IfId) (m : Mnemonic) (hr : s.status = .running) (hp : s.pipelined = true)
    (h : cycle s = .next t) (hl : s.ifid.out = some l) (hm : resolve s.endWord l.iw = .ok m) :
    t.idex.out = some (decodeResolved s l m).latch ∧ t.flag = (decodeResolved s l m).newFlag.getD s.flag ∧
      t.npc = (decodeResolved s l m).target.getD s.npc ∧ (transferTaken m s.flag = true → t.ds = 2) ∧ t.status = .running := by
  obtain ⟨s1, f, d, e, mm, hf, hd, _, _, ht⟩ := pipelined_cycle s t hr hp h
  obtain ⟨hflag, hnpc, _, _, hp1⟩ := hf.same
  cases hd with
  | bubble hl' => cases hl.symm.trans hl'
  | resolved l' m' hl' hm' =>
    cases hl.symm.trans hl'
    cases hm.symm.trans hm'
    have hout : t.idex.out = some (decodeResolved s l m).latch := by simp [ht]
    refine ⟨hout, by simp [ht, hflag], by simp [ht, hnpc], fun htaken => ?_,
      running_of_valid s t hr hp h (.inl (valid_of_out _ _ hout))⟩
    simp [ht, decodeResolved_target, htaken, hp1, hp]

/-- The cycle that executes it (R324 to R328). -/
theorem execute_pulse (s t : State) (l : IdEx) (hr : s.status = .running) (hp : s.pipelined = true) (h : cycle s = .next t)
    (hl : s.idex.out = some l) :
    ∃ v, executeResult l = .ok v ∧ t.exm.out = some (l.executed v) ∧ t.status = .running := by
  obtain ⟨s1, f, d, e, mm, _, _, he, _, ht⟩ := pipelined_cycle s t hr hp h
  cases he with
  | bubble hl' => cases hl.symm.trans hl'
  | result l' v hl' hv =>
    cases hl.symm.trans hl'
    have hout : t.exm.out = some (l.executed v) := by simp [ht]
    exact ⟨v, hv, hout, running_of_valid s t hr hp h (.inr (.inl (valid_of_out _ _ hout)))⟩

/-- The cycle that makes its access (R330, R331). -/
theorem memory_pulse (s t : State) (l : ExM) (hr : s.status = .running) (hp : s.pipelined = true) (h : cycle s = .next t)
    (hl : s.exm.out = some l) :
    ∃ x, memoryAccess s l = .ok (t.mem, x) ∧ t.mwb.out = some (l.accessed x) ∧ t.status = .running := by
  obtain ⟨s1, f, d, e, mm, _, _, _, hmem, ht⟩ := pipelined_cycle s t hr hp h
  cases hmem with
  | bubble hl' => cases hl.symm.trans hl'
  | access l' m x hl' ha =>
    cases hl.symm.trans hl'
    have hout : t.mwb.out = some (l.accessed x) := by simp [ht]
    exact ⟨x, by simpa [ht] using ha, hout, running_of_valid s t hr hp h (.inr (.inr (valid_of_out _ _ hout)))⟩

/-- An access depends on memory and the bus alone. -/
theorem memoryAccess_congr (s t : State) (l : ExM) (hm : t.mem = s.mem) (hb : t.bus = s.bus) :
    memoryAccess t l = memoryAccess s l := by
  simp only [memoryAccess, State.memRead, State.memWrite, hm, hb]

/-- The register an instruction names in M/WB is its destination, and it is written when its bundle says so (R334, R335). -/
theorem writeBack_of_instr (l : MWb) (m : Mnemonic) (w : Word) (hi : l.instr = m) (hc : l.ctl = controlBundle m)
    (hd : l.rd = destinationIndex m w) (hw : wbOutOf m = .write) :
    writeEnabled l = true ∧ writeBackIndex l = destinationIndex m w := by
  refine ⟨by simp [writeEnabled, hc, controlBundle, hw], ?_⟩
  unfold writeBackIndex
  rw [hi, hd]
  unfold destinationIndex
  split <;> rfl

/-- Settles O50: the instruction is followed through the four latches, and its meaning is what the stages compute. -/
theorem pipelinedInstructionHasItsMeaning : Obligations.PipelinedInstructionHasItsMeaning := by
  intro s s1 s2 s3 s4 l i hi hr hp hl hd h1 h2 h3 h4
  obtain ⟨hm, hops⟩ := resolve_of_decode s.endWord l.iw i hd
  have hne : i.mnemonic ≠ .endOfTest := mt (resolve_eq_endOfTest_iff s.endWord l.iw _ hm).mp (hi.ifid l hl)
  obtain ⟨hp1, _, hb1⟩ := cycle_parameters s s1 h1
  obtain ⟨hp2, _, hb2⟩ := cycle_parameters s1 s2 h2
  obtain ⟨hp3, _, _⟩ := cycle_parameters s2 s3 h3
  rw [hp] at hp1
  rw [hp1] at hp2
  rw [hp2] at hp3
  obtain ⟨hidex, hflag, hnpc, hds, hr1⟩ := decode_pulse s s1 l i.mnemonic hr hp h1 hl hm
  obtain ⟨v, hv, hexm, hr2⟩ := execute_pulse s1 s2 _ hr1 hp1 h2 hidex
  obtain ⟨x, ha, hmwb, hr3⟩ := memory_pulse s2 s3 _ hr2 hp2 h3 hexm
  have hmeaning := stagedMeaning_ok i.mnemonic l.iw { s with pc := l.pc, mem := s2.mem } v x s3.mem hv
    ((memoryAccess_congr s2 { s with pc := l.pc, mem := s2.mem } _ rfl (hb2.trans hb1).symm).trans ha)
  rw [← exec_eq_stagedMeaning i.mnemonic l.iw _ hne, hops] at hmeaning
  obtain ⟨hf, hn, hmem, _⟩ := staged_cells { s with pc := l.pc, mem := s2.mem } (decodeResolved s l i.mnemonic) s3.mem
    (((decodeResolved s l i.mnemonic).latch.executed v).accessed x)
  refine ⟨_, hmeaning, hflag.trans hf.symm, hnpc.trans hn.symm, hds, hmem.symm, fun hw => ?_⟩
  obtain ⟨he, hidx⟩ := writeBack_of_instr (((decodeResolved s l i.mnemonic).latch.executed v).accessed x) i.mnemonic l.iw rfl rfl rfl hw
  refine Eq.trans ?_ (staged_readReg { s with pc := l.pc, mem := s2.mem } (decodeResolved s l i.mnemonic) s3.mem
    (((decodeResolved s l i.mnemonic).latch.executed v).accessed x) _).symm
  rw [cycle_readReg s3 s4 h4 hr3 (fun hn => absurd (hp3.symm.trans hn) (by decide)), hmwb, writeBackClock_readReg,
    writeBackClock_readReg]
  simp only [he, hidx, and_self, if_true]

end Sys2Proof.Machine

/-! PROOFS. Timing: where the pipelined core stands after each cycle, and the cycle counts of runs that end (46_pipeline.md R341, R349,
70_reset_and_hazards.md R392). -/

namespace Sys2Proof.Machine

/-! ### The timing invariant -/

/-- Fetch fills IF/ID in every cycle until it has stopped (R316 to R318). -/
theorem pipelined_ifid_valid (s t : State) (hr : s.status = .running) (hp : s.pipelined = true) (h : cycle s = .next t) :
    t.ifid.valid = !t.fetchDone := by
  obtain ⟨s1, f, d, e, m, hf, _, _, _, rfl⟩ := pipelined_cycle s t hr hp h
  cases hf with
  | stopped hd => simp [hd]
  | ends => simp
  | word hd => simp [hd]

theorem pipelineTiming_of_startState (s : State) (h : StartState s) : PipelineTiming s := by
  obtain ⟨hifid, hidex, hexm, hmwb⟩ := h.latches
  obtain ⟨hstatus, hfetch⟩ := h.running
  obtain ⟨hissued, _, hcycles⟩ := h.counters
  constructor <;> simp [hifid, hidex, hexm, hmwb, hstatus, hfetch, hissued, hcycles]

/-- A cycle moves every instruction one latch on and counts one more cycle, so the timing holds after it (R341). -/
theorem pipelineTiming_cycle (s t : State) (hr : s.status = .running) (hp : s.pipelined = true) (hs : PipelineTiming s)
    (h : cycle s = .next t) : PipelineTiming t := by
  obtain ⟨hidex, hexm, hmwb⟩ := pipelined_valid_bits s t hr hp h
  obtain ⟨_, _, _, hissued, _, hcycles⟩ := pipelinedLatchesAdvance s t hr hp h
  obtain ⟨hended, _, _, hstop⟩ := termination s t hr h
  rw [hs.ifid] at hidex hissued
  rw [hs.idex] at hexm
  rw [hs.exm] at hmwb
  have hifid := pipelined_ifid_valid s t hr hp h
  have hfetching := hs.fetching
  have hfetched := hs.fetched
  cases ha : s.fetchDone with
  | true =>
    have hb := hstop ha
    have hfetched := hfetched ha
    simp only [ha, Bool.not_true, Bool.false_and, Bool.toNat_false, Nat.add_zero, Bool.false_or] at hidex hissued hexm hmwb
    constructor
    · simp [hifid, hb]
    · simp [hidex, hcycles, hissued, hb]; omega
    · rw [hexm, hcycles, hissued, hb, Bool.eq_iff_iff]; simp
    · rw [hmwb, hcycles, hissued, hb, Bool.eq_iff_iff]; simp
    · simp [hb]
    · intro _; omega
    · simpa [hp] using hended
  | false =>
    have hfetching := hfetching ha
    simp only [ha, Bool.not_false, Bool.true_and, Bool.true_or, Bool.and_true] at hidex hissued hexm hmwb
    have hissued : t.nIssued = s.nCycles := by
      rw [hissued, hfetching]
      cases s.nCycles <;> simp
    constructor
    · simp [hifid, hcycles]
    · simp [hidex, hcycles, hissued]
    · simp [hexm, hcycles, hissued]
    · simp [hmwb, hcycles, hissued]
    · intro _; omega
    · intro _; omega
    · simpa [hp] using hended

/-- Settles O58: a start state has nothing in flight, and a core that has ended stays. -/
theorem pipelineTimingKept : Obligations.PipelineTimingKept := by
  refine ⟨pipelineTiming_of_startState, fun s t hp hs h => ?_⟩
  rcases cycle_next_cases s t h with hr | ⟨_, rfl⟩
  · exact pipelineTiming_cycle s t hr hp hs h
  · exact hs

/-! ### Runs of cycles -/

/-- A run of cycles that answers a next state starts with a cycle that does. -/
theorem cycles_succ_next (k : Nat) (s t : State) (h : cycles (k + 1) s = .next t) :
    ∃ u, cycle s = .next u ∧ cycles k u = .next t := by
  simp only [cycles] at h
  split at h
  · next u hu => exact ⟨u, hu, h⟩
  · cases h
  · cases h

/-- What every cycle keeps, every run of cycles keeps. -/
theorem cycles_keep (P : State → Prop) (hP : ∀ s t, P s → cycle s = .next t → P t) (k : Nat) :
    ∀ s t, P s → cycles k s = .next t → P t := by
  induction k with
  | zero =>
    intro s t hs h
    cases h
    exact hs
  | succ k ih =>
    intro s t hs h
    obtain ⟨u, hu, h⟩ := cycles_succ_next k s t h
    exact ih u t (hP s u hs hu) h

theorem inv_cycles (k : Nat) (s t : State) (hs : Inv s) (h : cycles k s = .next t) : Inv t :=
  cycles_keep Inv invariantKeptByCycle k s t hs h

/-- A run of the pipelined core: its timing, and how long it took if it has ended (R392). -/
structure PipelinedRun (s : State) : Prop where
  inv : Inv s
  pipelined : s.pipelined = true
  timing : PipelineTiming s
  alive : s.status = .running ∨ s.status = .ended
  ended : s.status = .ended → s.nCycles = if s.nIssued = 0 then 1 else s.nIssued + 4

theorem pipelinedRun_of_startState (s : State) (h : StartState s) (hp : s.pipelined = true) : PipelinedRun s where
  inv := inv_of_startState s h
  pipelined := hp
  timing := pipelineTiming_of_startState s h
  alive := .inl h.running.1
  ended := by simp [h.running.1]

/-- Four cycles after the last instruction is issued, and not before, every latch is a bubble (R344, R392). -/
theorem ended_nCycles (s t : State) (hr : s.status = .running) (hs : PipelinedRun s) (h : cycle s = .next t)
    (ht : t.status = .ended) : t.nCycles = if t.nIssued = 0 then 1 else t.nIssued + 4 := by
  obtain ⟨hidex, hexm, hmwb⟩ := pipelined_valid_bits s t hr hs.pipelined h
  obtain ⟨_, _, _, hissued, _, hcycles⟩ := pipelinedLatchesAdvance s t hr hs.pipelined h
  have htiming := pipelineTiming_cycle s t hr hs.pipelined hs.timing h
  obtain ⟨hdone, hdrained⟩ := htiming.ended.mp ht
  simp only [State.drained, hidex, hexm, hmwb, Bool.and_eq_true, Bool.not_eq_true'] at hdrained
  obtain ⟨⟨⟨_, hifid⟩, hidex'⟩, hexm'⟩ := hdrained
  have hn : s.ifid.valid = (!s.fetchDone && decide (1 ≤ s.nCycles)) := hs.timing.ifid
  rw [hifid, Bool.toNat_false, Nat.add_zero] at hissued
  cases ha : s.fetchDone with
  | false =>
    have hzero : s.nCycles = 0 := by simpa [hifid, ha] using hn
    have hissued' : s.nIssued = 0 := by rw [hs.timing.fetching ha, hzero]
    simp [hissued, hissued', hcycles, hzero]
  | true =>
    have hwait : s.mwb.valid = true := by
      by_contra hm
      have hend := hs.timing.ended.mpr ⟨ha, by simp [State.drained, hifid, hidex', hexm', hm]⟩
      cases hr.symm.trans hend
    have hlast := htiming.mwb
    have hbound := hs.timing.mwb
    simp only [hmwb, hexm', hissued, hcycles, hdone] at hlast
    simp only [hwait, ha] at hbound
    have hlast : ¬ (4 ≤ s.nCycles + 1 ∧ s.nCycles + 1 ≤ s.nIssued + 3) := by simpa using hlast.symm
    have hbound : 4 ≤ s.nCycles ∧ s.nCycles ≤ s.nIssued + 3 := by simpa using hbound.symm
    rw [if_neg (by omega)]
    omega

theorem pipelinedRun_cycle (s t : State) (hs : PipelinedRun s) (h : cycle s = .next t) : PipelinedRun t where
  inv := invariantKeptByCycle s t hs.inv h
  pipelined := (cycle_parameters s t h).1.trans hs.pipelined
  timing := pipelineTimingKept.2 s t hs.pipelined hs.timing h
  alive := by
    rcases cycle_next_cases s t h with hr | ⟨he, rfl⟩
    · exact (termination s t hr h).2.1
    · exact .inr he
  ended := by
    rcases cycle_next_cases s t h with hr | ⟨_, rfl⟩
    · exact ended_nCycles s t hr hs h
    · exact hs.ended

/-- When every instruction that was issued has left the pipeline it is retired (R34). -/
theorem issued_eq_retired_of_ended (t : State) (hi : Inv t) (ht : t.status = .ended) : t.nIssued = t.nRetired := by
  cases hp : t.pipelined with
  | false => exact (hi.endedCounts hp ht).1
  | true =>
    have hd := hi.endedDrained ht hp
    simp only [State.drained, Bool.and_eq_true, Bool.not_eq_true'] at hd
    obtain ⟨⟨⟨_, hidex⟩, hexm⟩, hmwb⟩ := hd
    simpa [State.inFlight, hidex, hexm, hmwb] using hi.pipelinedCounts hp

/-- Settles O59, from what holds all along a run. -/
theorem cycleCounts : Obligations.CycleCounts := by
  rintro s t hs ⟨k, hk, ht⟩
  have hi : Inv t := inv_cycles k s t (inv_of_startState s hs) hk
  have heq := issued_eq_retired_of_ended t hi ht
  refine ⟨heq, fun hp => ?_, fun hp => ?_⟩
  · have hpt : t.pipelined = false :=
      cycles_keep (fun u => u.pipelined = false) (fun u v hu h => (cycle_parameters u v h).1.trans hu) k s t hp hk
    exact (hi.endedCounts hpt ht).2
  · have hrun := cycles_keep PipelinedRun pipelinedRun_cycle k s t (pipelinedRun_of_startState s hs hp) hk
    rw [← heq]
    exact hrun.ended ht

/-! ### The first cycles of a run -/

/-- A run of cycles counts each of them while the core runs, and never takes back an issued instruction. -/
theorem cycles_counters (k : Nat) : ∀ s t : State, s.pipelined = true → cycles k s = .next t →
    t.nCycles ≤ s.nCycles + k ∧ (t.status = .running → t.nCycles = s.nCycles + k) ∧ s.nIssued ≤ t.nIssued := by
  induction k with
  | zero =>
    intro s t _ h
    cases h
    exact ⟨Nat.le_refl _, fun _ => rfl, Nat.le_refl _⟩
  | succ k ih =>
    intro s t hp h
    obtain ⟨u, hu, hk⟩ := cycles_succ_next k s t h
    obtain ⟨hle, heq, hmono⟩ := ih u t ((cycle_parameters s u hu).1.trans hp) hk
    rcases cycle_next_cases s u hu with hr | ⟨he, rfl⟩
    · obtain ⟨_, _, _, hissued, _, hcycles⟩ := pipelinedLatchesAdvance s u hr hp hu
      exact ⟨by omega, fun ht => by rw [heq ht]; omega, by omega⟩
    · have hended := cycles_keep (fun v => v.status = .ended) (fun v w hv hw => by
        cases (stoppedCoreStays.1 v hv).2.symm.trans hw
        exact hv) k _ t he hk
      exact ⟨by omega, fun ht => (nomatch ht.symm.trans hended), hmono⟩

/-- The counters of R34 as the timing has them: an issued instruction is retired or in one of the three latches after decode. -/
theorem counts_of_run (s : State) (hs : PipelinedRun s) :
    s.nIssued = s.nRetired + ((if 2 ≤ s.nCycles ∧ (s.fetchDone = true → s.nCycles ≤ s.nIssued + 1) then 1 else 0) +
      (if 3 ≤ s.nCycles ∧ (s.fetchDone = true → s.nCycles ≤ s.nIssued + 2) then 1 else 0) +
      (if 4 ≤ s.nCycles ∧ (s.fetchDone = true → s.nCycles ≤ s.nIssued + 3) then 1 else 0)) := by
  refine (hs.inv.pipelinedCounts hs.pipelined).trans ?_
  rw [State.inFlight, hs.timing.idex, hs.timing.exm, hs.timing.mwb]
  cases s.fetchDone <;> simp [Bool.toNat, Bool.cond_eq_ite]

/-- In the first four cycles nothing leaves the pipeline (R341, R349). -/
theorem nothing_retired_early (s : State) (hs : PipelinedRun s) (hn : s.nCycles ≤ 4) : s.nRetired = 0 := by
  have hcounts := counts_of_run s hs
  cases ha : s.fetchDone with
  | false =>
    have hfetching := hs.timing.fetching ha
    simp only [ha, Bool.false_eq_true, false_imp_iff, and_true] at hcounts
    split_ifs at hcounts <;> omega
  | true =>
    have hfetched := hs.timing.fetched ha
    simp only [ha, true_imp_iff] at hcounts
    split_ifs at hcounts <;> omega

/-- After five cycles that issued an instruction one has been retired (R349). -/
theorem one_retired_at_five (s : State) (hs : PipelinedRun s) (hn : s.nCycles = 5) (hi : 1 ≤ s.nIssued) : s.nRetired = 1 := by
  have hcounts := counts_of_run s hs
  cases ha : s.fetchDone with
  | false =>
    have hfetching := hs.timing.fetching ha
    simp only [ha, Bool.false_eq_true, false_imp_iff, and_true] at hcounts
    split_ifs at hcounts <;> omega
  | true =>
    have hfetched := hs.timing.fetched ha
    simp only [ha, true_imp_iff] at hcounts
    split_ifs at hcounts <;> omega

/-- Settles O57: the timing invariant at the first cycles. -/
theorem firstCycleCounters : Obligations.FirstCycleCounters := by
  intro s t k hs hp h
  have hrun := cycles_keep PipelinedRun pipelinedRun_cycle k s t (pipelinedRun_of_startState s hs hp) h
  obtain ⟨hissued0, _, hcycles0⟩ := hs.counters
  obtain ⟨hle, heq, _⟩ := cycles_counters k s t hp h
  rw [hcycles0, Nat.zero_add] at hle heq
  refine ⟨fun hk => ?_, fun hk => nothing_retired_early t hrun (by omega), fun u hu hfetch => ?_⟩
  · cases ha : t.fetchDone with
    | false => rw [hrun.timing.fetching ha]; omega
    | true => have := hrun.timing.fetched ha; omega
  · have hru := pipelinedRun_cycle s u (pipelinedRun_of_startState s hs hp) hu
    obtain ⟨_, _, hur, _⟩ := pipelined_fetched s u hs.running.1 hp hu hfetch
    obtain ⟨_, _, _, hissued, _, hcycles⟩ := pipelinedLatchesAdvance s u hs.running.1 hp hu
    have hfull : u.ifid.valid = true := by rw [hru.timing.ifid, hfetch, hcycles]; simp
    have hsecond : ∀ v, cycle u = .next v → v.nIssued = 1 := by
      intro v hv
      obtain ⟨_, _, _, hi, _⟩ := pipelinedLatchesAdvance u v hur hru.pipelined hv
      rw [hi, hissued, hissued0, hfull, hs.latches.1]
      rfl
    refine ⟨?_, ?_⟩
    · rintro rfl
      rw [cycles_succ 1 s u hu, cycles_one] at h
      exact hsecond t h
    · rintro rfl
      rw [cycles_succ 4 s u hu] at h
      obtain ⟨v, hv, h⟩ := cycles_succ_next 3 u t h
      obtain ⟨_, _, hmono⟩ := cycles_counters 3 v t ((cycle_parameters u v hv).1.trans hru.pipelined) h
      rw [hsecond v hv] at hmono
      refine one_retired_at_five t hrun ?_ hmono
      rcases hrun.alive with hr | he
      · exact heq hr
      · have hended := hrun.ended he
        rw [if_neg (by omega)] at hended
        omega

end Sys2Proof.Machine
